-- ==== Sys2Proof/Word.lean ====
section
/-! DEFINITION. The value types of 00_scope.md R6 and R7: bytes, 32-bit words, buffers. -/

namespace Sys2Proof

/-- A byte is `bits8` (R7). -/
abbrev Byte := BitVec 8

/-- `bits32` (R6): a CAN value, a timestamp operand, one word of a serial record. -/
abbrev Word := BitVec 32

/-- A buffer is a finite sequence of bytes; byte 0 is the first one handed to or taken from a transport (R7). -/
abbrev Buffer := List Byte

end Sys2Proof
end

