-- ==== Sys2Proof/Config.lean ====
section
/-! DEFINITION. The parameters 00_scope.md R5 leaves OPEN. Each is a constant without a value, so that no proof can
rest on one choice. `REGISTRY` is the ROM of Machine/Registry.lean, held in State; `LAT` is an argument of
Machine/Clocked.lean, the only place where a number of clock cycles means anything; the fixed parameters of R5 stand
in Machine/Constants.lean. -/

namespace Sys2Proof

/-- The two values of `SERIAL_ORDER` (20_memory.md R26). `le` comes first: it is the spec's default (D4). -/
inductive SerialOrder where
  | le
  | be
deriving DecidableEq, Repr, Inhabited

/-- `SERIAL_ORDER`, the byte order of the words of both serial records, set when the block is built and fixed at run
time (R26). OPEN in the spec (R5, U1); log entry 4. -/
opaque Config.serialOrder : SerialOrder

/-- How many bits `LEN_W` has above the six that R5 demands. OPEN in the spec (R5, U7); log entry 5. -/
opaque Config.lenWExtra : Nat

/-- `LEN_W`, the width of the port `req_len`: at least 6 (R5). -/
def Config.lenW : Nat := 6 + Config.lenWExtra

/-- `MAXLEN = 2^LEN_W - 1`, the length of the longest input buffer (R5). -/
def Config.maxLen : Nat := 2 ^ Config.lenW - 1

end Sys2Proof
end

