-- ==== Sys2Proof/Syntax.lean ====
section
/-! DEFINITION. The records of the serial link, the block's requests as an instruction set (one constructor for each
mnemonic of spec/opcode_table.json), and the forms in which a request reaches the block before it is decoded. -/

namespace Sys2Proof

/-- Three axes of one sensor: index 0, 1, 2 of the spec's `acc` and `gyro` (10_state.md R17). -/
structure Axes where
  x : Word
  y : Word
  z : Word
deriving DecidableEq, Repr

/-- The four words `dynamixel[0]` to `dynamixel[3]` (R17). -/
structure Dynamixel where
  d0 : Word
  d1 : Word
  d2 : Word
  d3 : Word
deriving DecidableEq, Repr

/-- `SensorRecord`: 13 words in the order of 30_encoding.md R42. -/
structure SensorRecord where
  timestamp  : Word
  acc        : Axes
  gyro       : Axes
  baro       : Word
  ccPressure : Word
  dynamixel  : Dynamixel
deriving DecidableEq, Repr

/-- `CommandRecord`: 6 words in the order of 30_encoding.md R43 (24 bytes, 90_conflicts.md C2). -/
structure CommandRecord where
  timestamp : Word
  thrust    : Word
  dynamixel : Dynamixel
deriving DecidableEq, Repr

/-- `SlaveOpcode`, the closed set a serial opcode byte decodes into (10_state.md R17, 43_slave_dispatcher.md R106). -/
inductive SlaveOpcode where
  | ping
  | shutdown
  | payload
deriving DecidableEq, Repr

/-- The opcode of a NOP_UNKNOWN message: a byte not in 0x00, 0x01, 0x02 (R114). -/
structure UnknownOpcode where
  byte    : Byte
  unknown : byte ≠ 0x00#8 ∧ byte ≠ 0x01#8 ∧ byte ≠ 0x02#8
deriving DecidableEq, Repr

/-- The payload of a PAYLOAD_BADLEN message: any length except 52 (R113). -/
structure BadLenPayload where
  bytes  : Buffer
  badLen : bytes.length ≠ 52
deriving DecidableEq, Repr

/-- The instructions: the eight requests of 00_scope.md R9 (format REQ), the five behaviours of a serial message
(format MSG, 30_encoding.md R52) and the three pseudo-operations (format CANFRAME, R60). The seven table rows
NOP_UNKNOWN are one instruction whose operand is the opcode byte (log entry 14). -/
inductive Instr where
  | resolve (id : Byte)
  | canEnc (dataId : Byte) (value timestamp : Word)
  | canDec (bytes : Buffer)
  | sensEnc (record : SensorRecord)
  | sensDec (bytes : Buffer)
  | cmdEnc (record : CommandRecord)
  | dispatch (opcode : Byte) (payload : Buffer)
  | reserved7
  | ping (payload : Buffer)
  | shutdown (payload : Buffer)
  | payload (payload : Vector Byte 52)
  | payloadBadlen (payload : BadLenPayload)
  | nopUnknown (opcode : UnknownOpcode) (payload : Buffer)
  | tvcBoot (ts : Word)
  | tvcShutdown (ts : Word)
  | tvcAbort (ts : Word)
deriving DecidableEq, Repr

/-- The request ports of 10_state.md R15 as the environment drives them. `len` is the number on `req_len`; a byte of
`req_buf` that `buf` does not list is 0 (log entry 5). -/
structure ReqPorts where
  op        : BitVec 3
  dataId    : Byte := 0
  value     : Word := 0
  timestamp : Word := 0
  opcode    : Byte := 0
  len       : Nat := 0
  buf       : Buffer := []
  words     : BitVec 416 := 0
deriving DecidableEq, Repr

/-- What the environment presents, not yet decoded, in one of the three formats of spec/opcode_table.json
(log entry 12). -/
inductive Presented where
  /-- Format REQ (R51): the request ports. -/
  | req (ports : ReqPorts)
  /-- Format MSG (R44): the pair the serial transport delivers, which the environment presents to DISPATCH. -/
  | msg (opcode : Byte) (payload : Buffer)
  /-- Format CANFRAME (R60): a pseudo-operation, named by the integer view `N(b)` of the frame it asks for. -/
  | pseudo (pattern : BitVec 64)
deriving DecidableEq, Repr

end Sys2Proof
end

