-- ==== Sys2Proof/Machine/Operands.lean ====
section
/-! DEFINITION. Operand access: the primitives of 00_scope.md R8 over buffers, field reads and writes
(20_memory.md R25, R26, R31), and the packing of bytes and words on a port (10_state.md R15). -/

namespace Sys2Proof

/-- The byte at an offset. Offsets at or beyond the length read 0 here; no rule reads one (20_memory.md R32). -/
def byteAt (b : Buffer) (i : Nat) : Byte := b.getD i 0

/-- `MemRead(b, off, n)` (R8). -/
def memRead (b : Buffer) (off n : Nat) : Buffer := (b.drop off).take n

/-- `MemWrite(b, off, n, s)` (R8), with `n` the length of `s`. -/
def memWrite (b : Buffer) (off : Nat) (s : Buffer) : Buffer := b.take off ++ s ++ b.drop (off + s.length)

/-- `BE(b, off, 3)`. -/
def be24 (b : Buffer) (off : Nat) : BitVec 24 := byteAt b off ++ byteAt b (off + 1) ++ byteAt b (off + 2)

/-- `BE(b, off, 4)`. -/
def be32 (b : Buffer) (off : Nat) : Word :=
  byteAt b off ++ byteAt b (off + 1) ++ byteAt b (off + 2) ++ byteAt b (off + 3)

/-- `LE(b, off, 4)`. -/
def le32 (b : Buffer) (off : Nat) : Word :=
  byteAt b (off + 3) ++ byteAt b (off + 2) ++ byteAt b (off + 1) ++ byteAt b off

/-- `N(b) = BE(b, 0, 8)`, the integer view of an 8-byte frame (R7). -/
def frameNumber (b : Buffer) : BitVec 64 := be32 b 0 ++ be32 b 4

/-- `be_bytes_3(v)`. -/
def beBytes3 (v : BitVec 24) : Buffer := [v.extractLsb' 16 8, v.extractLsb' 8 8, v.extractLsb' 0 8]

/-- `be_bytes_4(v)`. -/
def beBytes4 (v : Word) : Buffer :=
  [v.extractLsb' 24 8, v.extractLsb' 16 8, v.extractLsb' 8 8, v.extractLsb' 0 8]

/-- `le_bytes_4(v)`. -/
def leBytes4 (v : Word) : Buffer :=
  [v.extractLsb' 0 8, v.extractLsb' 8 8, v.extractLsb' 16 8, v.extractLsb' 24 8]

/-- `SER(b, off)`: one word of a serial record in byte order `o` (R8, R26). -/
def ser (o : SerialOrder) (b : Buffer) (off : Nat) : Word :=
  match o with
  | .le => le32 b off
  | .be => be32 b off

/-- `ser_bytes(v)` (R8, R26). -/
def serBytes (o : SerialOrder) (v : Word) : Buffer :=
  match o with
  | .le => leBytes4 v
  | .be => beBytes4 v

/-- The 13 fields of a sensor record in the order of 30_encoding.md R42. -/
def SensorRecord.words (r : SensorRecord) : List Word :=
  [r.timestamp, r.acc.x, r.acc.y, r.acc.z, r.gyro.x, r.gyro.y, r.gyro.z, r.baro, r.ccPressure,
   r.dynamixel.d0, r.dynamixel.d1, r.dynamixel.d2, r.dynamixel.d3]

/-- The sensor record whose field `k` is `w k`. -/
def SensorRecord.ofWords (w : Nat → Word) : SensorRecord where
  timestamp  := w 0
  acc        := ⟨w 1, w 2, w 3⟩
  gyro       := ⟨w 4, w 5, w 6⟩
  baro       := w 7
  ccPressure := w 8
  dynamixel  := ⟨w 9, w 10, w 11, w 12⟩

/-- The 6 fields of a command record in the order of 30_encoding.md R43. -/
def CommandRecord.words (c : CommandRecord) : List Word :=
  [c.timestamp, c.thrust, c.dynamixel.d0, c.dynamixel.d1, c.dynamixel.d2, c.dynamixel.d3]

/-- The command record whose field `k` is `w k`. -/
def CommandRecord.ofWords (w : Nat → Word) : CommandRecord where
  timestamp := w 0
  thrust    := w 1
  dynamixel := ⟨w 2, w 3, w 4, w 5⟩

/-- The first `n` bytes on a buffer port; a byte not listed is 0 (10_state.md R15; log entry 5). -/
def portBuffer (buf : Buffer) (n : Nat) : Buffer := (List.range n).map (byteAt buf)

/-- Words on a word port: word `k` occupies bits `32k+31 : 32k` (R15). -/
def packWords : List Word → BitVec 416
  | [] => 0
  | w :: ws => (packWords ws <<< 32) ||| w.setWidth 416

/-- Word `k` of a word port (R15). -/
def portWord (p : BitVec 416) (k : Nat) : Word := p.extractLsb' (32 * k) 32

/-- Bytes on a buffer port: byte `i` occupies bits `8i+7 : 8i` (R15). -/
def packBytes : Buffer → BitVec 416
  | [] => 0
  | b :: bs => (packBytes bs <<< 8) ||| b.setWidth 416

/-- Byte `i` of a buffer port (R15). -/
def portByte (p : BitVec 416) (i : Nat) : Byte := p.extractLsb' (8 * i) 8

end Sys2Proof
end

