-- ==== Sys2Proof/Machine/Constants.lean ====
section
/-! DEFINITION. The fixed parameters of 00_scope.md R5 that are byte strings, the TVC command codes, and the bound on a
buffer's length. -/

namespace Sys2Proof

/-- `ACK_BYTES`, the reply to Ping (R5, R45). -/
def ackBytes : Buffer := [0xCE#8, 0xEC#8]

/-- `ERR_BYTES`, the reply to a malformed Payload message (R5, R45). -/
def errBytes : Buffer := [0xC5#8, 0xE5#8]

/-- The TVC command data-ID, 100 (40_data_registry.md R69). -/
def tvcCommandId : Byte := 0x64#8

/-- TVC command code Boot (R69). -/
def tvcBootCode : Word := 0x00000001#32

/-- TVC command code Shutdown (R69). -/
def tvcShutdownCode : Word := 0x00000002#32

/-- TVC command code Abort (R69). -/
def tvcAbortCode : Word := 0x00000003#32

/-- A buffer length that `req_len` can carry: at most `MAXLEN` (R5, R15). The first test decides nothing (`MAXLEN` is at
least 63, see `lenFits_iff`); with it a short length is accepted without a value for `LEN_W`. -/
def lenFits (n : Nat) : Bool := n < 64 || n ≤ Config.maxLen

end Sys2Proof
end

