-- ==== Sys2Proof/WellFormed.lean ====
section
/-! DEFINITION. Which instructions can be presented to the block. Operand values are never checked (10_state.md R17: every
bit pattern is legal): what is checked is that the operand fits the form that carries it. The conditions on a PAYLOAD,
a PAYLOAD_BADLEN and a NOP_UNKNOWN are part of their operand types. -/

namespace Sys2Proof

/-- A timestamp that the 24-bit field of a CANFRAME row can carry whole. -/
def tsFits (ts : Word) : Bool := ts.toNat < 2 ^ 24

/-- A buffer operand is at most `MAXLEN` bytes long (00_scope.md R5), and the operand of a pseudo-operation is one that
its row of the opcode table can carry (30_encoding.md R60; log entry 13). -/
def Instr.wf : Instr → Bool
  | .resolve _ => true
  | .canEnc _ _ _ => true
  | .canDec b => lenFits b.length
  | .sensEnc _ => true
  | .sensDec b => lenFits b.length
  | .cmdEnc _ => true
  | .dispatch _ p => lenFits p.length
  | .reserved7 => true
  | .ping p => lenFits p.length
  | .shutdown p => lenFits p.length
  | .payload _ => true
  | .payloadBadlen p => lenFits p.bytes.length
  | .nopUnknown _ p => lenFits p.length
  | .tvcBoot ts => tsFits ts
  | .tvcShutdown ts => tsFits ts
  | .tvcAbort ts => tsFits ts

end Sys2Proof
end

