-- ==== Sys2Proof/Decode.lean ====
section
/-! DEFINITION. From what the environment presents to an instruction, total, rejecting by name; then the encoder, written
from the same tables (30_encoding.md R51, R52, R60); then the host's reading of a word of spec/opcode_table.json. -/

namespace Sys2Proof

/-- Why something presented is no instruction. -/
inductive DecodeError where
  /-- A buffer longer than `MAXLEN`: `req_len` cannot carry its length (00_scope.md R5). -/
  | bufferTooLong
  /-- A CANFRAME pattern that is none of the three pseudo-operations of R60. -/
  | noPseudoOperation
deriving DecidableEq, Repr

/-- The opcode byte to `SlaveOpcode`: all eight bits take part, every other value is no `SlaveOpcode`
(43_slave_dispatcher.md R106). -/
def SlaveOpcode.ofByte (b : Byte) : Option SlaveOpcode :=
  if b = 0x00#8 then some .ping
  else if b = 0x01#8 then some .shutdown
  else if b = 0x02#8 then some .payload
  else none

/-- A length test that lets only what fits the ports through. -/
def guardLen (n : Nat) (i : Instr) : Except DecodeError Instr :=
  if lenFits n then .ok i else .error .bufferTooLong

/-- The record on `req_words` for SENS_ENC: 13 words (10_state.md R15). -/
def ReqPorts.sensor (p : ReqPorts) : SensorRecord := SensorRecord.ofWords (portWord p.words)

/-- The record on `req_words` for CMD_ENC: words 0 to 5, the rest ignored (42_serial_payload_codec.md R94). -/
def ReqPorts.command (p : ReqPorts) : CommandRecord := CommandRecord.ofWords (portWord p.words)

/-- The buffer on `req_buf` and `req_len` (R15, D19). -/
def ReqPorts.buffer (p : ReqPorts) : Buffer := portBuffer p.buf p.len

/-- Format REQ: the operation selector of R51; ports the operation does not use are ignored (D17). -/
def decodeReq (p : ReqPorts) : Except DecodeError Instr :=
  match p.op.toNat with
  | 0 => .ok (.resolve p.dataId)
  | 1 => .ok (.canEnc p.dataId p.value p.timestamp)
  | 2 => guardLen p.len (.canDec p.buffer)
  | 3 => .ok (.sensEnc p.sensor)
  | 4 => guardLen p.len (.sensDec p.buffer)
  | 5 => .ok (.cmdEnc p.command)
  | 6 => guardLen p.len (.dispatch p.opcode p.buffer)
  | _ => .ok .reserved7

/-- A payload of 52 bytes as the operand of PAYLOAD (R112). -/
def fullPayload (b : Buffer) (h : b.length = 52) : Vector Byte 52 := ⟨b.toArray, by simpa using h⟩

/-- Format MSG: the opcode byte by exact match, then the payload length for `0x02` (R52, R107). -/
def decodeMsg (opcode : Byte) (payload : Buffer) : Instr :=
  if h0 : opcode = 0x00#8 then .ping payload
  else if h1 : opcode = 0x01#8 then .shutdown payload
  else if h2 : opcode = 0x02#8 then
    if h : payload.length = 52 then .payload (fullPayload payload h) else .payloadBadlen ⟨payload, h⟩
  else .nopUnknown ⟨opcode, h0, h1, h2⟩ payload

/-- The bits a CANFRAME row fixes: `value` and `data_id` (R60). -/
def pseudoMask : BitVec 64 := 0xFFFFFFFFFF000000#64

/-- Format CANFRAME: the match and mask pairs of R60; bits 23:0 are the timestamp. -/
def decodePseudo (n : BitVec 64) : Except DecodeError Instr :=
  let ts : Word := (n.extractLsb' 0 24).setWidth 32
  if n &&& pseudoMask = 0x0000000164000000#64 then .ok (.tvcBoot ts)
  else if n &&& pseudoMask = 0x0000000264000000#64 then .ok (.tvcShutdown ts)
  else if n &&& pseudoMask = 0x0000000364000000#64 then .ok (.tvcAbort ts)
  else .error .noPseudoOperation

/-- The decoder: total on everything that can be presented. -/
def decode : Presented → Except DecodeError Instr
  | .req p => decodeReq p
  | .msg opcode payload => guardLen payload.length (decodeMsg opcode payload)
  | .pseudo n => decodePseudo n

/-- The match and mask pairs by which R53 covers the unknown opcodes `0x03` to `0xFF`. -/
def unknownOpcodeRows : List (Byte × Byte) :=
  [(0x03#8, 0xFF#8), (0x04#8, 0xFC#8), (0x08#8, 0xF8#8), (0x10#8, 0xF0#8), (0x20#8, 0xE0#8), (0x40#8, 0xC0#8),
   (0x80#8, 0x80#8)]

/-- A row matches a word `w` when `(w AND mask) = match` (R53). -/
def rowMatches (row : Byte × Byte) (w : Byte) : Bool := w &&& row.2 == row.1

/-- The frame pattern of a pseudo-operation: `value ‖ data_id ‖ timestamp[23:0]` (R41, R60). -/
def pseudoPattern (value : Word) (dataId : Byte) (ts : Word) : BitVec 64 := value ++ dataId ++ ts.extractLsb' 0 24

/-- The encoder: the ports, the message or the pattern by which an instruction is presented. Ports the operation does not
use are 0. -/
def encode : Instr → Presented
  | .resolve id => .req { op := 0, dataId := id }
  | .canEnc d v t => .req { op := 1, dataId := d, value := v, timestamp := t }
  | .canDec b => .req { op := 2, len := b.length, buf := b }
  | .sensEnc r => .req { op := 3, words := packWords r.words }
  | .sensDec b => .req { op := 4, len := b.length, buf := b }
  | .cmdEnc c => .req { op := 5, words := packWords c.words }
  | .dispatch o p => .req { op := 6, opcode := o, len := p.length, buf := p }
  | .reserved7 => .req { op := 7 }
  | .ping p => .msg 0x00#8 p
  | .shutdown p => .msg 0x01#8 p
  | .payload p => .msg 0x02#8 p.toList
  | .payloadBadlen p => .msg 0x02#8 p.bytes
  | .nopUnknown o p => .msg o.byte p
  | .tvcBoot ts => .pseudo (pseudoPattern tvcBootCode tvcCommandId ts)
  | .tvcShutdown ts => .pseudo (pseudoPattern tvcShutdownCode tvcCommandId ts)
  | .tvcAbort ts => .pseudo (pseudoPattern tvcAbortCode tvcCommandId ts)

/-- A word of spec/opcode_table.json as something presented. A word of more than a byte is a CANFRAME pattern; a word of at
most a byte is a REQ selector when it is one (below 8) and a MSG opcode otherwise. The words 0 to 7 of the table's REQ
and MSG rows are the same numbers, and only the port a word stands on tells them apart: they are read as selectors
(log entry 11). Every operand beyond the word is 0: ports of zeros, or an empty payload. -/
def presentedOfTableWord (nbits w : Nat) : Presented :=
  if nbits ≤ 8 then
    if w < 8 then .req { op := BitVec.ofNat 3 w } else .msg (BitVec.ofNat 8 w) []
  else .pseudo (BitVec.ofNat 64 w)

/-- What the decoder reads from a word of spec/opcode_table.json. -/
def decodeTableWord (nbits w : Nat) : Option Instr :=
  match decode (presentedOfTableWord nbits w) with
  | .ok i => some i
  | .error _ => none

end Sys2Proof
end

