-- ==== Sys2Proof/Machine/Registry.lean ====
section
/-! DEFINITION. The Data Registry as read-only memory (10_state.md R16, 40_data_registry.md R66 to R68). -/

namespace Sys2Proof

/-- The eight bands of data-IDs (R66). -/
inductive Band where
  | rawSensor
  | gps
  | calibration
  | ascentAbort
  | kalman
  | command
  | propulsion
  | tvc
deriving DecidableEq, Repr

/-- The code of a band on port `rsp_band` (R67). -/
def Band.code : Band → BitVec 3
  | .rawSensor => 0
  | .gps => 1
  | .calibration => 2
  | .ascentAbort => 3
  | .kalman => 4
  | .command => 5
  | .propulsion => 6
  | .tvc => 7

/-- `REGISTRY`: 256 entries indexed by the data-ID as a bit pattern (R16). An entry is the band of a known ID, and `none`
where `known = 0`: the spec gives no band there. -/
abbrev Registry := Vector (Option Band) 256

/-- The known data-IDs, band by band, as R66 lists them. -/
def registryRows : List (Band × List Nat) :=
  [(.rawSensor, [0, 1, 2, 3, 4, 5, 6]),
   (.gps, [7, 8, 9, 10, 11]),
   (.calibration, [12, 13]),
   (.ascentAbort, [16, 17, 18, 19]),
   (.kalman, [38, 40, 41, 42, 43, 44, 45, 46, 47, 48, 49]),
   (.command, [80]),
   (.propulsion, [85, 86, 87, 88, 89, 90, 91, 92, 93, 94, 95]),
   (.tvc, [100, 101, 102, 103, 104, 105, 106])]

/-- One entry of this version's table. -/
def registryEntry (id : Nat) : Option Band := (registryRows.find? fun row => row.2.contains id).map (·.1)

/-- This version's table, present from reset (R21, R66, R68). -/
def registryTable : Registry := ⟨((List.range 256).map registryEntry).toArray, by simp⟩

/-- The entry of a data-ID: `REGISTRY[uint(id)]` (R65). -/
def registryLookup (r : Registry) (id : Byte) : Option Band := r[id.toNat]'id.isLt

end Sys2Proof
end

