-- ==== Sys2Proof/Machine/State.lean ====
section
/-! DEFINITION. The block's state (10_state.md R10), what the environment drives (70_reset_and_hazards.md R160), the
responses (00_scope.md R9), and the reasons a step can stop. -/

namespace Sys2Proof.Machine

/-- `DataMeaning`: the pair `(band, id)` (40_data_registry.md R67). -/
structure DataMeaning where
  band : Band
  id   : Byte
deriving DecidableEq, Repr

/-- The result of CAN_DEC (41_can_frame_codec.md R78). -/
inductive CanResult where
  | valid (dataId : Byte) (value timestamp : Word)
  | invalid
deriving DecidableEq, Repr

/-- `CodecError`, which has one member (42_serial_payload_codec.md R93). -/
inductive CodecError where
  | lengthMismatch
deriving DecidableEq, Repr

/-- The result of SENS_DEC (R92). -/
inductive SensorResult where
  | ok (record : SensorRecord)
  | err (e : CodecError)
deriving DecidableEq, Repr

/-- The result of DISPATCH (43_slave_dispatcher.md R105). -/
inductive DispatchResult where
  | reply (bytes : Buffer)
  | noReply
deriving DecidableEq, Repr

/-- `Response` (00_scope.md R9): one alternative for each operation. -/
inductive Response where
  | meaning (m : Option DataMeaning)
  | frame (bytes : Buffer)
  | canResult (r : CanResult)
  | sensorBytes (bytes : Buffer)
  | sensorResult (r : SensorResult)
  | commandBytes (bytes : Buffer)
  | dispatchResult (r : DispatchResult)
  | nothing
deriving DecidableEq, Repr

/-- `Events`: the block's only event (43_slave_dispatcher.md R110). -/
inductive Event where
  | shutdownRequested
deriving DecidableEq, Repr

/-- What the environment drives during one step: the reset line, and at most one presented request (`req_valid` is whether
there is one). -/
structure Drive where
  rst : Bool
  req : Option Presented
deriving DecidableEq, Repr

/-- The state of the machine. `halted` and `registry` are the block's own, and all it has (R10); the rest are its ports at
the level of one step: `rst` and `inputs` come from the environment, `response` and `events` go to it (log entries 1, 9,
10). The output `shutdown_req` is `halted` (R110) and is not stored twice. -/
structure State where
  /-- 1 bit: the Shutdown action has been taken (R14). -/
  halted   : Bool
  /-- The registry ROM, 256 entries (R16). -/
  registry : Registry
  /-- The level of port `rst` in the step just taken (R15, R20). -/
  rst      : Bool
  /-- What the environment drives in the coming steps, the next one first (R160). -/
  inputs   : List Drive
  /-- The response that the step just taken produced; `none` when `rsp_valid = 0` (R15). -/
  response : Option Response
  /-- The output trace of events, oldest first (R8, R9). -/
  events   : List Event
deriving DecidableEq, Repr

/-- Reasons to stop with a fault: none. "In the model no operation returns a fault" (60_exceptions.md R133). -/
inductive Fault where
deriving DecidableEq, Repr

/-- Reasons to refuse. -/
inductive Refusal where
  /-- Raised by exec for an instruction without a meaning; no arm of this model raises it. Safe. -/
  | notModelled (mnemonic : String)
  /-- Raised by step when a running block is presented something that is no instruction of any format: the hardware's ports
  cannot carry it, or it names no pseudo-operation. Safe. -/
  | undecodable (e : DecodeError)
deriving DecidableEq, Repr

/-- The machine right after reset: `halted = 0` (R20), the table in the registry (R21), out of reset (R145), nothing driven
yet, no response present (R22), no event emitted. -/
def State.reset : State where
  halted   := false
  registry := registryTable
  rst      := false
  inputs   := []
  response := none
  events   := []

end Sys2Proof.Machine
end

