-- ==== Sys2Proof/Machine/Ops.lean ====
section
/-! DEFINITION. The shared operations over the state: acceptance, answering, the one write of state, reset. The block takes
no exception and has no return from one (60_exceptions.md R133, R134): there is no such operation to write. -/

namespace Sys2Proof.Machine

/-- The block can accept a request: not in reset, and not halted (43_slave_dispatcher.md R111, 60_exceptions.md R132).
This is the level of port `req_ready` (10_state.md R15). -/
def State.accepts (s : State) : Bool := !s.rst && !s.halted

/-- The response of the step is `r`. -/
def State.answer (s : State) (r : Response) : State := { s with response := some r }

/-- The step produces no response. -/
def State.noResponse (s : State) : State := { s with response := none }

/-- `S.halted <- 1` and `emit ShutdownRequested` (R109, R110): the only write of state in the block. -/
def State.requestShutdown (s : State) : State :=
  { s with halted := true, events := s.events ++ [.shutdownRequested] }

/-- The effect of `rst = 1` on the block (10_state.md R20): running again, a request in flight dropped without a response.
The registry is a constant (R21), and the trace of events past is not taken back. -/
def State.applyReset (s : State) : State := { s with halted := false, response := none }

/-- Present a request that acts as `act`. An accepted request acts. One that is not accepted gets no response and changes
nothing (R111): the step is a next state, for a halted block is neither stuck nor at fault (70_reset_and_hazards.md
R159; log entry 2). -/
def accept (s : State) (act : State → State) : Host.Outcome State Fault Refusal :=
  if s.accepts then .next (act s) else .next s.noResponse

end Sys2Proof.Machine
end

