-- ==== Sys2Proof/Machine/CanFrameCodec.lean ====
section
/-! DEFINITION. The CAN Frame Codec (41_can_frame_codec.md) and the three pseudo-operations that expand to CAN_ENC
(30_encoding.md R60). -/

namespace Sys2Proof.Machine

/-- The frame of CAN_ENC (R48, R75): `be_bytes_4(value) ++ [data_id] ++ be_bytes_3(trunc_24(timestamp))`. The top byte of
the timestamp is dropped silently (R77). -/
def canEncode (dataId : Byte) (value timestamp : Word) : Buffer :=
  beBytes4 value ++ [dataId] ++ beBytes3 (timestamp.setWidth 24)

/-- The result of CAN_DEC (R47, R78): the length is tested first, and any length but 8 is `Invalid` (R79); the timestamp is
zero-extended (R80). -/
def canDecode (b : Buffer) : CanResult :=
  if b.length = 8 then .valid (byteAt b 4) (be32 b 0) ((be24 b 5).setWidth 32) else .invalid

/-- CAN_ENC (R75). -/
def execCanEnc (dataId : Byte) (value timestamp : Word) (s : State) : Host.Outcome State Fault Refusal :=
  accept s fun s => s.answer (.frame (canEncode dataId value timestamp))

/-- CAN_DEC (R78). -/
def execCanDec (bytes : Buffer) (s : State) : Host.Outcome State Fault Refusal :=
  accept s fun s => s.answer (.canResult (canDecode bytes))

/-- TVC_BOOT: `CAN_ENC 100, 1, ts` (R60). -/
def execTvcBoot (ts : Word) (s : State) : Host.Outcome State Fault Refusal :=
  accept s fun s => s.answer (.frame (canEncode tvcCommandId tvcBootCode ts))

/-- TVC_SHUTDOWN: `CAN_ENC 100, 2, ts` (R60). It is a frame and does not halt the block. -/
def execTvcShutdown (ts : Word) (s : State) : Host.Outcome State Fault Refusal :=
  accept s fun s => s.answer (.frame (canEncode tvcCommandId tvcShutdownCode ts))

/-- TVC_ABORT: `CAN_ENC 100, 3, ts` (R60). -/
def execTvcAbort (ts : Word) (s : State) : Host.Outcome State Fault Refusal :=
  accept s fun s => s.answer (.frame (canEncode tvcCommandId tvcAbortCode ts))

end Sys2Proof.Machine
end

