-- ==== Sys2Proof/Machine/DataRegistry.lean ====
section
/-! DEFINITION. RESOLVE, the one operation of the Data Registry (40_data_registry.md). -/

namespace Sys2Proof.Machine

/-- The answer of RESOLVE (R65): `Some(band, id)` for a known ID, `None` otherwise. -/
def resolve (r : Registry) (id : Byte) : Option DataMeaning :=
  match registryLookup r id with
  | some band => some ⟨band, id⟩
  | none => none

/-- RESOLVE (R65). -/
def execResolve (id : Byte) (s : State) : Host.Outcome State Fault Refusal :=
  accept s fun s => s.answer (.meaning (resolve s.registry id))

end Sys2Proof.Machine
end

