-- ==== Sys2Proof/Machine/Reserved.lean ====
section
/-! DEFINITION. The reserved operation selector 7 (30_encoding.md R57). -/

namespace Sys2Proof.Machine

/-- RESERVED7: accepted when the block is running, changes no state, emits no event, gets the response `Nothing` (R57;
log entry 6). -/
def execReserved7 (s : State) : Host.Outcome State Fault Refusal := accept s fun s => s.answer .nothing

end Sys2Proof.Machine
end

