-- ==== Sys2Proof/Machine/SerialPayloadCodec.lean ====
section
/-! DEFINITION. The Serial Payload Codec (42_serial_payload_codec.md). The functions take the byte order as an argument;
the operations pass the parameter `SERIAL_ORDER`. -/

namespace Sys2Proof.Machine

/-- The words of a record, each in its four bytes, in order and without padding (20_memory.md R27, R49). -/
def encodeWords (o : SerialOrder) (ws : List Word) : Buffer := ws.flatMap (serBytes o)

/-- The 52 bytes of a sensor record (R90). -/
def encodeSensor (o : SerialOrder) (r : SensorRecord) : Buffer := encodeWords o r.words

/-- The 24 bytes of a command record (R94). -/
def encodeCommand (o : SerialOrder) (c : CommandRecord) : Buffer := encodeWords o c.words

/-- The record in 52 bytes: field `k` is `SER(b, 4k)` (R92). -/
def sensorOfBytes (o : SerialOrder) (b : Buffer) : SensorRecord := SensorRecord.ofWords fun k => ser o b (4 * k)

/-- The result of SENS_DEC (R92): the length is tested first, and any length but 52 is `Err(LengthMismatch)` (R93). -/
def decodeSensor (o : SerialOrder) (b : Buffer) : SensorResult :=
  if b.length = 52 then .ok (sensorOfBytes o b) else .err .lengthMismatch

/-- `CMD_DERIVE` (R96): the all-zero command, whatever the sensor record. -/
def cmdDerive (_ : SensorRecord) : CommandRecord where
  timestamp := 0
  thrust    := 0
  dynamixel := ⟨0, 0, 0, 0⟩

/-- SENS_ENC (R90). -/
def execSensEnc (record : SensorRecord) (s : State) : Host.Outcome State Fault Refusal :=
  accept s fun s => s.answer (.sensorBytes (encodeSensor Config.serialOrder record))

/-- SENS_DEC (R92). -/
def execSensDec (bytes : Buffer) (s : State) : Host.Outcome State Fault Refusal :=
  accept s fun s => s.answer (.sensorResult (decodeSensor Config.serialOrder bytes))

/-- CMD_ENC (R94). -/
def execCmdEnc (record : CommandRecord) (s : State) : Host.Outcome State Fault Refusal :=
  accept s fun s => s.answer (.commandBytes (encodeCommand Config.serialOrder record))

end Sys2Proof.Machine
end

