-- ==== Sys2Proof/Machine/SlaveDispatcher.lean ====
section
/-! DEFINITION. The Slave Protocol Dispatcher (43_slave_dispatcher.md): its five behaviours, DISPATCH which routes to them,
and the five instructions of format MSG. -/

namespace Sys2Proof.Machine

/-- PING: the acknowledgement; the payload is not looked at (R108). -/
def actPing (s : State) : State := s.answer (.dispatchResult (.reply ackBytes))

/-- SHUTDOWN: halt, emit the event, no reply; the payload is not looked at (R109). -/
def actShutdown (s : State) : State := s.requestShutdown.answer (.dispatchResult .noReply)

/-- PAYLOAD: decode the sensor record, derive the command, reply with its encoding (R112). Decoding cannot fail on 52
bytes. -/
def actPayload (payload : Vector Byte 52) (s : State) : State :=
  let r := sensorOfBytes Config.serialOrder payload.toList
  s.answer (.dispatchResult (.reply (encodeCommand Config.serialOrder (cmdDerive r))))

/-- PAYLOAD_BADLEN: the error sentinel; no byte of the payload is read (R113). -/
def actPayloadBadlen (s : State) : State := s.answer (.dispatchResult (.reply errBytes))

/-- NOP_UNKNOWN: no reply, no state change (R114). -/
def actNopUnknown (s : State) : State := s.answer (.dispatchResult .noReply)

/-- The routing of DISPATCH (R105, R107): the opcode first, then for `0x02` the payload length. -/
def actDispatch (opcode : Byte) (payload : Buffer) (s : State) : State :=
  match SlaveOpcode.ofByte opcode with
  | some .ping => actPing s
  | some .shutdown => actShutdown s
  | some .payload =>
    if h : payload.length = 52 then actPayload (fullPayload payload h) s else actPayloadBadlen s
  | none => actNopUnknown s

/-- DISPATCH (R105). -/
def execDispatch (opcode : Byte) (payload : Buffer) (s : State) : Host.Outcome State Fault Refusal :=
  accept s (actDispatch opcode payload)

/-- PING, the message with opcode `0x00` (R108). -/
def execPing (_payload : Buffer) (s : State) : Host.Outcome State Fault Refusal := accept s actPing

/-- SHUTDOWN, the message with opcode `0x01` (R109). -/
def execShutdown (_payload : Buffer) (s : State) : Host.Outcome State Fault Refusal := accept s actShutdown

/-- PAYLOAD, the message with opcode `0x02` and 52 bytes (R112). -/
def execPayload (payload : Vector Byte 52) (s : State) : Host.Outcome State Fault Refusal :=
  accept s (actPayload payload)

/-- PAYLOAD_BADLEN, the message with opcode `0x02` and any other length (R113). -/
def execPayloadBadlen (_payload : BadLenPayload) (s : State) : Host.Outcome State Fault Refusal :=
  accept s actPayloadBadlen

/-- NOP_UNKNOWN, a message with an opcode from `0x03` to `0xFF` (R114). -/
def execNopUnknown (_opcode : UnknownOpcode) (_payload : Buffer) (s : State) : Host.Outcome State Fault Refusal :=
  accept s actNopUnknown

end Sys2Proof.Machine
end

