-- ==== Sys2Proof/Machine/Dispatch.lean ====
section
/-! DEFINITION. One arm per instruction, one meaning per arm. -/

namespace Sys2Proof.Machine

def exec (i : Instr) (s : State) : Host.Outcome State Fault Refusal :=
  match i with
  | .resolve id => Sys2Proof.Machine.execResolve id s
  | .canEnc d v t => Sys2Proof.Machine.execCanEnc d v t s
  | .canDec b => Sys2Proof.Machine.execCanDec b s
  | .sensEnc r => Sys2Proof.Machine.execSensEnc r s
  | .sensDec b => Sys2Proof.Machine.execSensDec b s
  | .cmdEnc c => Sys2Proof.Machine.execCmdEnc c s
  | .dispatch o p => Sys2Proof.Machine.execDispatch o p s
  | .reserved7 => Sys2Proof.Machine.execReserved7 s
  | .ping p => Sys2Proof.Machine.execPing p s
  | .shutdown p => Sys2Proof.Machine.execShutdown p s
  | .payload p => Sys2Proof.Machine.execPayload p s
  | .payloadBadlen p => Sys2Proof.Machine.execPayloadBadlen p s
  | .nopUnknown o p => Sys2Proof.Machine.execNopUnknown o p s
  | .tvcBoot ts => Sys2Proof.Machine.execTvcBoot ts s
  | .tvcShutdown ts => Sys2Proof.Machine.execTvcShutdown ts s
  | .tvcAbort ts => Sys2Proof.Machine.execTvcAbort ts s

end Sys2Proof.Machine
end

