-- ==== Sys2Proof/Machine/Fetch.lean ====
section
/-! DEFINITION. Where a step gets its request from. The block has no program counter and fetches no instructions
(10_state.md R12): what it executes next is what the environment drives next. -/

namespace Sys2Proof.Machine

/-- The drive of the step about to be taken: the next one of the environment's, or nothing when it drives nothing more. -/
def State.nextDrive (s : State) : Drive := s.inputs.headD ⟨false, none⟩

/-- The state in which that drive is on the ports. -/
def State.driven (s : State) : State := { s with inputs := s.inputs.tail, rst := s.nextDrive.rst }

/-- A running block is presented something that is no instruction: refused by name. A halted block accepts nothing, whatever
it is (60_exceptions.md R132). -/
def refuseUndecodable (e : DecodeError) (s : State) : Host.Outcome State Fault Refusal :=
  if s.accepts then .refused (.undecodable e) else .next s.noResponse

/-- The environment's next drive becomes the presentation of `p`. -/
def State.place (s : State) (p : Presented) : State := { s with inputs := ⟨false, some p⟩ :: s.inputs }

end Sys2Proof.Machine
end

