-- ==== Sys2Proof/Machine/Step.lean ====
section
/-! DEFINITION. One step: the block under one drive of the environment. The order of the tests is 60_exceptions.md R132:
reset wins over everything (D23), then a halted block accepts nothing, then the request decides. -/

namespace Sys2Proof.Machine

/-- One step. With `rst = 1` the block is reset and a request presented at the same time is dropped; with no request it is
idle; a request is decoded and executed. -/
def step (s : State) : Host.Outcome State Fault Refusal :=
  if s.nextDrive.rst then .next s.driven.applyReset
  else
    match s.nextDrive.req with
    | none => .next s.driven.noResponse
    | some p =>
      match decode p with
      | .ok i => exec i s.driven
      | .error e => refuseUndecodable e s.driven

/-- The environment presents the table word `w` in the next step (log entry 1). -/
def State.withFetchWord (s : State) (nbits w : Nat) : State := s.place (presentedOfTableWord nbits w)

end Sys2Proof.Machine
end

