-- ==== Sys2Proof/Machine/Flags.lean ====
section
/-! DEFINITION. The block has no flags and stores no outcome (10_state.md R13). What stands in their place is the outcome
tag of one response, the output port `rsp_ok`. -/

namespace Sys2Proof.Machine

/-- `rsp_ok` of a response (10_state.md R15). -/
def Response.ok : Response → Bool
  | .meaning m => m.isSome
  | .frame _ => true
  | .canResult (.valid _ _ _) => true
  | .canResult .invalid => false
  | .sensorBytes _ => true
  | .sensorResult (.ok _) => true
  | .sensorResult (.err _) => false
  | .commandBytes _ => true
  | .dispatchResult (.reply _) => true
  | .dispatchResult .noReply => false
  | .nothing => false

end Sys2Proof.Machine
end

