-- ==== Sys2Proof/Machine/Pins.lean ====
section
/-! DEFINITION. The pin view of the block's outputs (10_state.md R15): the response ports and `shutdown_req` as a function
of the state. The input side is `ReqPorts`, read by `decodeReq`. -/

namespace Sys2Proof.Machine

/-- The output ports of R15. -/
structure OutPins where
  reqReady     : Bool := false
  rspValid     : Bool := false
  rspOk        : Bool := false
  rspLen       : BitVec 6 := 0
  rspBuf       : BitVec 416 := 0
  rspDataId    : Byte := 0
  rspValue     : Word := 0
  rspTimestamp : Word := 0
  rspWords     : BitVec 416 := 0
  rspBand      : BitVec 3 := 0
  shutdownReq  : Bool := false
deriving DecidableEq, Repr

/-- An output buffer on `rsp_len` and `rsp_buf`; bytes at offsets beyond the length are 0. -/
def bufferPins (b : Buffer) : OutPins := { rspLen := BitVec.ofNat 6 b.length, rspBuf := packBytes b }

/-- The payload ports of a response. Ports the operation does not use are 0, and so are all of them when `rsp_ok = 0`
(R15, D12). -/
def Response.payloadPins : Response → OutPins
  | .meaning (some m) => { rspBand := m.band.code }
  | .meaning none => {}
  | .frame b => bufferPins b
  | .canResult (.valid d v t) => { rspDataId := d, rspValue := v, rspTimestamp := t }
  | .canResult .invalid => {}
  | .sensorBytes b => bufferPins b
  | .sensorResult (.ok r) => { rspWords := packWords r.words }
  | .sensorResult (.err _) => {}
  | .commandBytes b => bufferPins b
  | .dispatchResult (.reply b) => bufferPins b
  | .dispatchResult .noReply => {}
  | .nothing => {}

/-- The response ports: all 0 while `rsp_valid = 0` (R22). -/
def responsePins : Option Response → OutPins
  | none => {}
  | some r => { r.payloadPins with rspValid := true, rspOk := r.ok }

/-- All output ports after a step: `req_ready` is 0 while halted or in reset (R15), and `shutdown_req` equals `halted` in
every cycle (R110). -/
def State.pins (s : State) : OutPins :=
  { responsePins s.response with reqReady := s.accepts, shutdownReq := s.halted }

end Sys2Proof.Machine
end

