-- ==== Sys2Proof/Machine/Clocked.lean ====
section
/-! DEFINITION. The pin-level block, clock cycle by clock cycle (10_state.md R15, R20, 70_reset_and_hazards.md R145, R155,
R158). The machine of Step.lean is atomic and has no time (D16). Here a request takes `LAT` cycles, so that the handshake
and a reset that meets a request in flight can be said. `LAT` is OPEN (00_scope.md R5): an argument. -/

namespace Sys2Proof.Machine

/-- The input ports in one clock cycle (R15). -/
structure InPins where
  rst      : Bool
  reqValid : Bool
  ports    : ReqPorts
deriving DecidableEq, Repr

/-- A request in flight: accepted, its response `left` cycles after the coming one (R15, R158). -/
structure Flight where
  instr : Instr
  left  : Nat
deriving DecidableEq, Repr

/-- The pin-level block between two clock edges: its state, and at most one request in flight (R15). -/
structure Clocked where
  block  : State
  flight : Option Flight
deriving DecidableEq, Repr

/-- `req_ready` in a cycle: not in reset, not halted, no request in flight (R15). -/
def Clocked.ready (c : Clocked) (i : InPins) : Bool := !i.rst && !c.block.halted && c.flight.isNone

/-- The request takes its effect and its response appears. -/
def Clocked.complete (instr : Instr) (b : State) : Clocked :=
  match exec instr b with
  | .next t => ⟨t, none⟩
  | .fault _ => ⟨b, none⟩
  | .refused _ => ⟨b, none⟩

/-- A request accepted in this cycle: answered at once when `LAT = 0`, in flight otherwise (R158). -/
def Clocked.launch (lat : Nat) (instr : Instr) (b : State) : Clocked :=
  match lat with
  | 0 => Clocked.complete instr b
  | n + 1 => ⟨b, some ⟨instr, n⟩⟩

/-- One clock cycle. `rst = 1` drops a request in flight without a response (R20). A request in flight is answered after
`LAT` cycles. Otherwise a request is accepted when `req_valid` and `req_ready` are both 1 (R15). -/
def Clocked.tick (c : Clocked) (lat : Nat) (i : InPins) : Clocked :=
  let b : State := { c.block with rst := i.rst, response := none }
  if i.rst then ⟨b.applyReset, none⟩
  else
    match c.flight with
    | some ⟨instr, 0⟩ => Clocked.complete instr b
    | some ⟨instr, n + 1⟩ => ⟨b, some ⟨instr, n⟩⟩
    | none =>
      if i.reqValid && c.ready i then
        match decode (.req i.ports) with
        | .ok instr => Clocked.launch lat instr b
        | .error _ => ⟨b, none⟩
      else ⟨b, none⟩

/-- The output ports in a cycle with inputs `i` that begins in `c`. -/
def Clocked.pins (c : Clocked) (lat : Nat) (i : InPins) : OutPins :=
  { (c.tick lat i).block.pins with reqReady := c.ready i }

/-- The block after clock cycles with the listed inputs, the first one first. -/
def Clocked.cycles (c : Clocked) (lat : Nat) : List InPins → Clocked
  | [] => c
  | i :: is => (c.tick lat i).cycles lat is

end Sys2Proof.Machine
end

