-- ==== Sys2Proof/Safety.lean ====
section
/-! DEFINITION. The terms claims are stated in: a running block, the end of a run, the responses the block can give, and the
invariant that every step keeps. -/

namespace Sys2Proof.Machine

/-- A block that accepts a request: running, and not in reset (43_slave_dispatcher.md R111). -/
abbrev Running (s : State) : Prop := s.halted = false ∧ s.rst = false

/-- A run has ended exactly when `halted = 1` (70_reset_and_hazards.md R159). It is a final state and no fault. -/
abbrev RunEnded (s : State) : Prop := s.halted = true

/-- The Shutdown action among the instructions: the message with opcode `0x01`, or DISPATCH of that opcode (R109). -/
def haltsBlock : Instr → Bool
  | .shutdown _ => true
  | .dispatch o _ => o == 0x01#8
  | _ => false

/-- The closed set of reply buffers (R115). -/
def legalReply (b : Buffer) : Bool := b == ackBytes || b == errBytes || b == List.replicate 24 0x00#8

/-- The responses that 00_scope.md R9 and 60_exceptions.md R129 give the block: the lengths of the output buffers, the zero
top byte of a decoded timestamp, the meanings of this version's registry, the three replies. -/
def Response.legal : Response → Bool
  | .meaning none => true
  | .meaning (some m) => registryLookup registryTable m.id == some m.band
  | .frame b => b.length == 8
  | .canResult (.valid _ _ ts) => ts.toNat < 2 ^ 24
  | .canResult .invalid => true
  | .sensorBytes b => b.length == 52
  | .sensorResult _ => true
  | .commandBytes b => b.length == 24
  | .dispatchResult (.reply b) => legalReply b
  | .dispatchResult .noReply => true
  | .nothing => true

/-- What every step keeps. -/
structure State.Inv (s : State) : Prop where
  /-- The registry is read-only memory: it holds this version's table (10_state.md R16, R21). -/
  registry_is_table : s.registry = registryTable
  /-- The response, if one is present, is one the block can give. -/
  response_legal : ∀ r, s.response = some r → r.legal = true
  /-- A halted block has emitted the event, and is not in reset (R20, R109). -/
  halted_requested : s.halted = true → .shutdownRequested ∈ s.events ∧ s.rst = false
  /-- In reset no response is present (R20). -/
  reset_silent : s.rst = true → s.response = none

end Sys2Proof.Machine
end

