-- ==== Sys2Proof/Certificates/Slice0/Obligations.lean ====
section
/-! DEFINITION. The statements for the provers. Each docstring names the rule of spec/ it states, or says that it rests on
a decision of the spec or of this model. `Running` is what R111 asks for acceptance. Where a statement gives the response
of an instruction it says what the whole next state is, so that it is the instruction's result, its completion and its
frame at once. A statement of a rule gives the ports that the rule's own pin view gives; that every other port is 0 is the
spec's decision D12, and UnusedResponsePortsAreZero says it once for all. -/

open Sys2Proof Sys2Proof.Machine

/-! ## The Data Registry -/

/-- R65: RESOLVE answers from its entry of the registry and changes nothing else; its selector, its pin view (`rsp_ok` and
`rsp_band`) and the corner cases the rule lists. -/
def Obligations.ResolveAnswersFromTheRegistry : Prop :=
  (∀ (s : State) (id : Byte), Running s →
    exec (.resolve id) s = .next { s with response := some (.meaning (match s.registry[id.toNat]? with
      | some (some band) => some ⟨band, id⟩
      | _ => none)) }) ∧
  (∀ p : ReqPorts, p.op = 0 → decode (.req p) = .ok (.resolve p.dataId)) ∧
  (∀ (s : State) (id : Byte) (band : Band), Running s → s.registry[id.toNat]? = some (some band) →
    ∃ t, exec (.resolve id) s = .next t ∧ t.pins.rspOk = true ∧ t.pins.rspBand = band.code) ∧
  (∀ (s : State) (id : Byte), Running s → s.registry[id.toNat]? = some none →
    ∃ t, exec (.resolve id) s = .next t ∧ t.pins.rspOk = false ∧ t.pins.rspBand = 0) ∧
  registryTable[0x00] = some .rawSensor ∧ registryTable[0x6A] = some .tvc ∧ registryTable[0x6B] = none ∧
  registryTable[0x27] = none ∧ registryTable[0x26] ≠ none ∧ registryTable[0x28] ≠ none ∧
  registryTable[0x0E] = none ∧ registryTable[0x0F] = none ∧ registryTable[0x0D] ≠ none ∧ registryTable[0x10] ≠ none ∧
  (∀ id : Byte, 0x80 ≤ id.toNat → registryTable[id.toNat]? = some none)

/-- R66: after reset the registry knows the 48 data-IDs of the eight bands, band by band, and no other. -/
def Obligations.RegistryKnowsTheListedBands : Prop :=
  (∀ id : Fin 256, State.reset.registry[id] =
    if id.val ≤ 6 then some .rawSensor
    else if 7 ≤ id.val ∧ id.val ≤ 11 then some .gps
    else if id.val = 12 ∨ id.val = 13 then some .calibration
    else if 16 ≤ id.val ∧ id.val ≤ 19 then some .ascentAbort
    else if id.val = 38 ∨ (40 ≤ id.val ∧ id.val ≤ 49) then some .kalman
    else if id.val = 80 then some .command
    else if 85 ≤ id.val ∧ id.val ≤ 95 then some .propulsion
    else if 100 ≤ id.val ∧ id.val ≤ 106 then some .tvc
    else none) ∧
  (State.reset.registry.toList.countP (·.isSome) = 48) ∧
  ([.rawSensor, .gps, .calibration, .ascentAbort, .kalman, .command, .propulsion, .tvc].map
    (fun band => State.reset.registry.toList.count (some band)) = [7, 5, 2, 4, 11, 1, 11, 7])

/-- R67 and R68 (the band codes are the spec's decision D9, the list of unknown IDs is derived by the spec from R66): from
every running block that holds this version's registry, RESOLVE answers `None` for each of the 208 unknown IDs, and two
IDs with the same known answer are the same ID. -/
def Obligations.UnknownIdsResolveToNone : Prop :=
  (∀ (s : State) (id : Byte), Running s → s.registry = registryTable →
    (id.toNat ∈ [0x0E, 0x0F, 0x27] ∨ (0x14 ≤ id.toNat ∧ id.toNat ≤ 0x25) ∨ (0x32 ≤ id.toNat ∧ id.toNat ≤ 0x4F) ∨
      (0x51 ≤ id.toNat ∧ id.toNat ≤ 0x54) ∨ (0x60 ≤ id.toNat ∧ id.toNat ≤ 0x63) ∨ 0x6B ≤ id.toNat) →
    exec (.resolve id) s = .next { s with response := some (.meaning none) }) ∧
  (registryTable.toList.count none = 208) ∧
  (∀ (s : State) (id id' : Byte) (t t' : State) (m : DataMeaning), Running s →
    exec (.resolve id) s = .next t → exec (.resolve id') s = .next t' →
    t.response = some (.meaning (some m)) → t'.response = some (.meaning (some m)) → id = id') ∧
  ([Band.rawSensor, .gps, .calibration, .ascentAbort, .kalman, .command, .propulsion, .tvc].map Band.code =
    [0, 1, 2, 3, 4, 5, 6, 7])

/-! ## The CAN Frame Codec -/

/-- R75, R76: CAN_ENC is total, packs its operands byte by byte and changes nothing else; its selector, its pin view
(`rsp_ok`, `rsp_len`, bytes 0 to 7 of `rsp_buf`), and its integer view `value ‖ data_id ‖ timestamp[23:0]`. -/
def Obligations.CanEncPacksTheFrame : Prop :=
  (∀ (s : State) (d : Byte) (v t : Word), Running s →
    exec (.canEnc d v t) s = .next { s with response := some (.frame
      [v.extractLsb' 24 8, v.extractLsb' 16 8, v.extractLsb' 8 8, v.extractLsb' 0 8, d,
       t.extractLsb' 16 8, t.extractLsb' 8 8, t.extractLsb' 0 8]) }) ∧
  (∀ p : ReqPorts, p.op = 1 → decode (.req p) = .ok (.canEnc p.dataId p.value p.timestamp)) ∧
  (∀ (s : State) (d : Byte) (v t : Word), Running s → ∃ b u, exec (.canEnc d v t) s = .next u ∧
    u.response = some (.frame b) ∧ frameNumber b = v ++ d ++ t.extractLsb' 0 24 ∧
    u.pins.rspOk = true ∧ u.pins.rspLen = 8 ∧ ∀ k, k < 8 → portByte u.pins.rspBuf k = b.getD k 0)

/-- R77: bits 31:24 of the timestamp have no effect on CAN_ENC, in any state; the source's form with `t + 2^24` is a case. -/
def Obligations.CanEncTruncatesTheTimestamp : Prop :=
  (∀ (s : State) (d : Byte) (v t t' : Word), t.extractLsb' 0 24 = t'.extractLsb' 0 24 →
    exec (.canEnc d v t) s = exec (.canEnc d v t') s) ∧
  (∀ (s : State) (d : Byte) (v t : Word), exec (.canEnc d v t) s = exec (.canEnc d v (t + 0x01000000#32)) s) ∧
  (∀ (s : State) (d : Byte) (v t : Word),
    exec (.canEnc d v t) s = exec (.canEnc d v (BitVec.ofNat 32 (t.toNat % 2 ^ 24))) s)

/-- R78, R79, R80: CAN_DEC reads the three fields of an 8-byte buffer, answers `Invalid` exactly for every other length, and
changes nothing else; its selector, with the first `req_len` bytes of `req_buf`, and its pin view (`rsp_ok` and the three
fields). What a byte that `req_buf` does not list reads as is log entry 5 and is said in PortsCarryBytesAndWordsInPlace. -/
def Obligations.CanDecReadsOrRejects : Prop :=
  (∀ (s : State) (b : Buffer), Running s →
    exec (.canDec b) s = .next { s with response := some (.canResult (match b with
      | [b0, b1, b2, b3, b4, b5, b6, b7] => .valid b4 (b0 ++ b1 ++ b2 ++ b3) (0x00#8 ++ b5 ++ b6 ++ b7)
      | _ => .invalid)) }) ∧
  (∀ (s t : State) (b : Buffer), Running s → exec (.canDec b) s = .next t →
    (t.response = some (.canResult .invalid) ↔ b.length ≠ 8)) ∧
  (∀ (s t : State) (b : Buffer) (d : Byte) (v ts : Word), Running s → exec (.canDec b) s = .next t →
    t.response = some (.canResult (.valid d v ts)) →
    ts.extractLsb' 24 8 = 0 ∧ ts.toNat < 2 ^ 24 ∧
    t.pins.rspOk = true ∧ t.pins.rspDataId = d ∧ t.pins.rspValue = v ∧ t.pins.rspTimestamp = ts) ∧
  (∀ (s t : State) (b : Buffer), Running s → exec (.canDec b) s = .next t → b.length ≠ 8 →
    t.pins.rspOk = false ∧ t.pins.rspDataId = 0 ∧ t.pins.rspValue = 0 ∧ t.pins.rspTimestamp = 0) ∧
  (∀ p : ReqPorts, p.op = 2 → p.len ≤ Config.maxLen → p.len ≤ p.buf.length →
    decode (.req p) = .ok (.canDec (p.buf.take p.len)))

/-- R81: encode then decode gives the triple back with the timestamp's low 24 bits, zero-extended. This general form is the
spec's own inference (derived by it from R75, R78, R80); the source's law is the case of a timestamp below 2^24. -/
def Obligations.CanEncodeThenDecode : Prop :=
  ∀ (s : State) (d : Byte) (v t : Word), Running s → ∃ b u w,
    exec (.canEnc d v t) s = .next u ∧ u.response = some (.frame b) ∧
    exec (.canDec b) u = .next w ∧
    w.response = some (.canResult (.valid d v ((t.extractLsb' 0 24).setWidth 32))) ∧
    (t.toNat < 2 ^ 24 → w.response = some (.canResult (.valid d v t)))

/-- R82 (derived by the spec from R75, R78, R41): decode then encode gives every 8-byte buffer back. -/
def Obligations.CanDecodeThenEncode : Prop :=
  ∀ (s : State) (b : Buffer), Running s → b.length = 8 → ∃ d v t u w,
    exec (.canDec b) s = .next u ∧ u.response = some (.canResult (.valid d v t)) ∧
    exec (.canEnc d v t) u = .next w ∧ w.response = some (.frame b)

/-- R60: the three pseudo-operations are CAN_ENC with two operands fixed, for every timestamp and in every state; the frame
has the match and mask pattern of the rule, and the block is not halted by one. -/
def Obligations.TvcPseudoOperationsAreCanEnc : Prop :=
  (∀ (s : State) (ts : Word),
    exec (.tvcBoot ts) s = exec (.canEnc 100 1 ts) s ∧
    exec (.tvcShutdown ts) s = exec (.canEnc 100 2 ts) s ∧
    exec (.tvcAbort ts) s = exec (.canEnc 100 3 ts) s) ∧
  (∀ (s : State) (ts : Word), Running s → ∃ b1 b2 b3,
    exec (.tvcBoot ts) s = .next { s with response := some (.frame b1) } ∧
    exec (.tvcShutdown ts) s = .next { s with response := some (.frame b2) } ∧
    exec (.tvcAbort ts) s = .next { s with response := some (.frame b3) } ∧
    frameNumber b1 &&& 0xFFFFFFFFFF000000#64 = 0x0000000164000000#64 ∧
    frameNumber b2 &&& 0xFFFFFFFFFF000000#64 = 0x0000000264000000#64 ∧
    frameNumber b3 &&& 0xFFFFFFFFFF000000#64 = 0x0000000364000000#64)

/-! ## The Serial Payload Codec -/

/-- R90, R91: SENS_ENC is total: thirteen `MemWrite`s of `ser_bytes` into a zero buffer of 52 bytes, whatever the byte
order; nothing else changes; its selector and its pin view (`rsp_ok`, `rsp_len`, bytes 0 to 51 of `rsp_buf`). -/
def Obligations.SensEncWritesThirteenWords : Prop :=
  (∀ (s : State) (r : SensorRecord), Running s →
    exec (.sensEnc r) s = .next { s with response := some (.sensorBytes
      ((List.range 13).foldl
        (fun b k => memWrite b (4 * k) (serBytes Config.serialOrder (r.words.getD k 0)))
        (List.replicate 52 0x00#8))) }) ∧
  (∀ (s : State) (r : SensorRecord), Running s → ∃ b u, exec (.sensEnc r) s = .next u ∧
    u.response = some (.sensorBytes b) ∧ b.length = 52 ∧
    u.pins.rspOk = true ∧ u.pins.rspLen = 52 ∧ ∀ k, k < 52 → portByte u.pins.rspBuf k = b.getD k 0) ∧
  (∀ p : ReqPorts, p.op = 3 → ∃ r, decode (.req p) = .ok (.sensEnc r) ∧
    ∀ k, k < 13 → r.words.getD k 0 = p.words.extractLsb' (32 * k) 32)

/-- R92, R93: SENS_DEC reads word `k` as `SER(b, 4k)` from a 52-byte buffer, answers `Err(LengthMismatch)` exactly for every
other length, and changes nothing else; its selector, with the first `req_len` bytes of `req_buf`, and its pin view
(`rsp_ok` and `rsp_words`). What a byte that `req_buf` does not list reads as is log entry 5 and is said in
PortsCarryBytesAndWordsInPlace. -/
def Obligations.SensDecReadsOrRejects : Prop :=
  (∀ (s : State) (b : Buffer), Running s → b.length = 52 → ∃ r,
    exec (.sensDec b) s = .next { s with response := some (.sensorResult (.ok r)) } ∧
    r.words = (List.range 13).map (fun k => ser Config.serialOrder b (4 * k)) ∧
    (let u : State := { s with response := some (.sensorResult (.ok r)) }
     u.pins.rspOk = true ∧ ∀ k, k < 13 → portWord u.pins.rspWords k = r.words.getD k 0)) ∧
  (∀ (s : State) (b : Buffer), Running s → b.length ≠ 52 →
    exec (.sensDec b) s = .next { s with response := some (.sensorResult (.err .lengthMismatch)) } ∧
    (let u : State := { s with response := some (.sensorResult (.err .lengthMismatch)) }
     u.pins.rspOk = false ∧ u.pins.rspWords = 0)) ∧
  (∀ p : ReqPorts, p.op = 4 → p.len ≤ Config.maxLen → p.len ≤ p.buf.length →
    decode (.req p) = .ok (.sensDec (p.buf.take p.len)))

/-- R94, with the spec's decision D5 (log entry 7) that a command record is six words in 24 bytes where the source says 20:
CMD_ENC is total: six `MemWrite`s of `ser_bytes` into a zero buffer of 24 bytes; nothing else changes; its selector (words 6
to 12 are ignored) and its pin view (`rsp_ok`, `rsp_len`, bytes 0 to 23 of `rsp_buf`). -/
def Obligations.CmdEncWritesSixWords : Prop :=
  (∀ (s : State) (c : CommandRecord), Running s →
    exec (.cmdEnc c) s = .next { s with response := some (.commandBytes
      ((List.range 6).foldl
        (fun b k => memWrite b (4 * k) (serBytes Config.serialOrder (c.words.getD k 0)))
        (List.replicate 24 0x00#8))) }) ∧
  (∀ (s : State) (c : CommandRecord), Running s → ∃ b u, exec (.cmdEnc c) s = .next u ∧
    u.response = some (.commandBytes b) ∧ b.length = 24 ∧
    u.pins.rspOk = true ∧ u.pins.rspLen = 24 ∧ ∀ k, k < 24 → portByte u.pins.rspBuf k = b.getD k 0) ∧
  (∀ p : ReqPorts, p.op = 5 → ∃ c, decode (.req p) = .ok (.cmdEnc c) ∧
    ∀ k, k < 6 → c.words.getD k 0 = p.words.extractLsb' (32 * k) 32)

/-- R98: decoding a 52-byte buffer and encoding the record gives the buffer back, as two instructions and, for the codec
functions, in both byte orders. -/
def Obligations.SensorDecodeThenEncode : Prop :=
  (∀ (s : State) (b : Buffer), Running s → b.length = 52 → ∃ r u w,
    exec (.sensDec b) s = .next u ∧ u.response = some (.sensorResult (.ok r)) ∧
    exec (.sensEnc r) u = .next w ∧ w.response = some (.sensorBytes b)) ∧
  (∀ (o : SerialOrder) (b : Buffer), b.length = 52 → ∃ r, decodeSensor o b = .ok r ∧ encodeSensor o r = b)

/-- R99 (derived by the spec from R90, R92, R42): encoding a record and decoding the bytes gives the record back, as two
instructions and, for the codec functions, in both byte orders. -/
def Obligations.SensorEncodeThenDecode : Prop :=
  (∀ (s : State) (r : SensorRecord), Running s → ∃ b u w,
    exec (.sensEnc r) s = .next u ∧ u.response = some (.sensorBytes b) ∧
    exec (.sensDec b) u = .next w ∧ w.response = some (.sensorResult (.ok r))) ∧
  (∀ (o : SerialOrder) (r : SensorRecord), decodeSensor o (encodeSensor o r) = .ok r)

/-- R100 (derived by the spec): two byte orders give the same bytes exactly for records all of whose words are byte
palindromes; SENS_DEC returns the same value in a field exactly when the four bytes of its word are a palindrome, and so the
same record exactly when all are; which buffers decode does not depend on the order. -/
def Obligations.SerialOrderMattersExactlyOffPalindromes : Prop :=
  (∀ r : SensorRecord, encodeSensor .le r = encodeSensor .be r ↔ ∀ w ∈ r.words, (leBytes4 w).reverse = leBytes4 w) ∧
  (∀ c : CommandRecord, encodeCommand .le c = encodeCommand .be c ↔ ∀ w ∈ c.words, (leBytes4 w).reverse = leBytes4 w) ∧
  (∀ b : Buffer, b.length = 52 → ∃ r r', decodeSensor .le b = .ok r ∧ decodeSensor .be b = .ok r' ∧
    (∀ k, k < 13 → (r.words.getD k 0 = r'.words.getD k 0 ↔ (memRead b (4 * k) 4).reverse = memRead b (4 * k) 4)) ∧
    (r = r' ↔ ∀ k, k < 13 → (memRead b (4 * k) 4).reverse = memRead b (4 * k) 4)) ∧
  (∀ (o : SerialOrder) (b : Buffer), decodeSensor o b = .err .lengthMismatch ↔ b.length ≠ 52)

/-! ## The Slave Protocol Dispatcher -/

/-- R105, R106, R107: DISPATCH behaves, in every state, as the one behaviour that its opcode selects, for `0x02` with the
payload length; in a running block it is answered; the three `SlaveOpcode`s; its selector, with the first `req_len` bytes of
`req_buf`, and its pin view (`rsp_valid`, `rsp_ok`, `rsp_len`, `rsp_buf`). What a byte that `req_buf` does not list reads as
is log entry 5 and is said in PortsCarryBytesAndWordsInPlace. -/
def Obligations.DispatchRoutesByOpcodeThenLength : Prop :=
  (∀ (s : State) (p : Buffer),
    exec (.dispatch 0x00#8 p) s = exec (.ping p) s ∧ exec (.dispatch 0x01#8 p) s = exec (.shutdown p) s ∧
    (∀ q : Vector Byte 52, exec (.dispatch 0x02#8 q.toList) s = exec (.payload q) s) ∧
    (∀ q : BadLenPayload, exec (.dispatch 0x02#8 q.bytes) s = exec (.payloadBadlen q) s) ∧
    (∀ u : UnknownOpcode, exec (.dispatch u.byte p) s = exec (.nopUnknown u p) s)) ∧
  (∀ (s : State) (o : Byte) (p : Buffer), Running s → ∃ r t,
    exec (.dispatch o p) s = .next t ∧ t.response = some (.dispatchResult r) ∧
    t.pins.rspValid = true ∧
    (∀ b, r = .reply b → t.pins.rspOk = true ∧ t.pins.rspLen.toNat = b.length ∧
      ∀ k, k < b.length → portByte t.pins.rspBuf k = b.getD k 0) ∧
    (r = .noReply → t.pins.rspOk = false ∧ t.pins.rspLen = 0 ∧ t.pins.rspBuf = 0)) ∧
  (∀ b : Byte, (SlaveOpcode.ofByte b = some .ping ↔ b = 0x00#8) ∧ (SlaveOpcode.ofByte b = some .shutdown ↔ b = 0x01#8) ∧
    (SlaveOpcode.ofByte b = some .payload ↔ b = 0x02#8) ∧ (SlaveOpcode.ofByte b = none ↔ 3 ≤ b.toNat)) ∧
  (∀ p : ReqPorts, p.op = 6 → p.len ≤ Config.maxLen → p.len ≤ p.buf.length →
    decode (.req p) = .ok (.dispatch p.opcode (p.buf.take p.len)))

/-- R108: Ping is acknowledged with `[0xCE, 0xEC]` whatever its payload, and nothing changes. -/
def Obligations.PingIsAcknowledged : Prop :=
  (∀ (s : State) (p : Buffer), Running s →
    exec (.ping p) s = .next { s with response := some (.dispatchResult (.reply [0xCE#8, 0xEC#8])) } ∧
    exec (.dispatch 0x00#8 p) s = .next { s with response := some (.dispatchResult (.reply [0xCE#8, 0xEC#8])) }) ∧
  (∀ p : Buffer, p.length ≤ Config.maxLen → decode (.msg 0x00#8 p) = .ok (.ping p))

/-- R109, R110 (that the block halts is the spec's decision D6, that the payload is ignored D14, the shape of the response D13,
that unused ports are 0 D12; log entries 3, 16, 17): Shutdown, whatever its payload, halts the block, emits the event, gets no
reply, and changes nothing else; from then on `shutdown_req = 1` and `req_ready = 0`. -/
def Obligations.ShutdownHaltsWithoutReply : Prop :=
  (∀ (s : State) (p : Buffer), Running s →
    exec (.shutdown p) s = .next { s with
      halted := true, events := s.events ++ [.shutdownRequested], response := some (.dispatchResult .noReply) } ∧
    exec (.dispatch 0x01#8 p) s = exec (.shutdown p) s) ∧
  (∀ (s t : State) (p : Buffer), Running s → exec (.shutdown p) s = .next t →
    t.pins = { rspValid := true, shutdownReq := true }) ∧
  (∀ p : Buffer, p.length ≤ Config.maxLen → decode (.msg 0x01#8 p) = .ok (.shutdown p))

/-- R112: the reply to a 52-byte Payload message is the encoding of the command derived from the decoded record, which is 24
zero bytes whatever the payload and the byte order (derived by the spec from R94, R96; that a command record is 24 bytes is
the spec's decision D5, log entry 7); nothing else changes. -/
def Obligations.PayloadIsAnsweredWithTheZeroCommand : Prop :=
  (∀ (s : State) (p : Vector Byte 52), Running s →
    exec (.payload p) s = .next { s with response := some (.dispatchResult (.reply (List.replicate 24 0x00#8))) }) ∧
  (∀ (s : State) (p : Buffer), Running s → p.length = 52 →
    exec (.dispatch 0x02#8 p) s =
      .next { s with response := some (.dispatchResult (.reply (List.replicate 24 0x00#8))) }) ∧
  (∀ (o : SerialOrder) (p : Vector Byte 52), ∃ r, decodeSensor o p.toList = .ok r ∧
    encodeCommand o (cmdDerive r) = List.replicate 24 0x00#8) ∧
  (∀ p : Vector Byte 52, decode (.msg 0x02#8 p.toList) = .ok (.payload p))

/-- R113: a Payload message of any other length gets the error sentinel `[0xC5, 0xE5]`; nothing else changes. -/
def Obligations.BadLengthPayloadGetsTheSentinel : Prop :=
  (∀ (s : State) (p : BadLenPayload), Running s →
    exec (.payloadBadlen p) s = .next { s with response := some (.dispatchResult (.reply [0xC5#8, 0xE5#8])) }) ∧
  (∀ (s : State) (p : Buffer), Running s → p.length ≠ 52 →
    exec (.dispatch 0x02#8 p) s = .next { s with response := some (.dispatchResult (.reply [0xC5#8, 0xE5#8])) }) ∧
  (∀ p : BadLenPayload, p.bytes.length ≤ Config.maxLen → decode (.msg 0x02#8 p.bytes) = .ok (.payloadBadlen p))

/-- R114: a message with any opcode but the three is ignored: no reply, no state change, no event; its pin view (`rsp_valid`,
`rsp_ok`, `rsp_len`, `shutdown_req`), and the block stays running. -/
def Obligations.UnknownOpcodesAreIgnored : Prop :=
  (∀ (s : State) (o : UnknownOpcode) (p : Buffer), Running s →
    exec (.nopUnknown o p) s = .next { s with response := some (.dispatchResult .noReply) }) ∧
  (∀ (s : State) (o : Byte) (p : Buffer), Running s → 3 ≤ o.toNat →
    exec (.dispatch o p) s = .next { s with response := some (.dispatchResult .noReply) } ∧
    (let u : State := { s with response := some (.dispatchResult .noReply) }
     Running u ∧ u.pins.rspValid = true ∧ u.pins.rspOk = false ∧ u.pins.rspLen = 0 ∧ u.pins.shutdownReq = false)) ∧
  (∀ (o : UnknownOpcode) (p : Buffer), p.length ≤ Config.maxLen → decode (.msg o.byte p) = .ok (.nopUnknown o p))

/-! ## The reserved selector -/

/-- R57 (the spec's decision D10; log entry 6): the reserved selector is accepted, changes nothing, gets `Nothing`, with
`rsp_ok` and all payload ports 0 (also D12; log entry 16). -/
def Obligations.ReservedSelectorGetsNothing : Prop :=
  (∀ s : State, Running s →
    exec .reserved7 s = .next { s with response := some .nothing } ∧
    ({ s with response := some .nothing } : State).pins = { reqReady := true, rspValid := true }) ∧
  (∀ p : ReqPorts, p.op = 7 → decode (.req p) = .ok .reserved7)

/-! ## The block as a whole -/

/-- R111 (the spec's decision D6; log entry 2): a block that is halted or in reset accepts no instruction: no response, and
nothing else changes. -/
def Obligations.NothingIsAcceptedWhenNotRunning : Prop :=
  ∀ (i : Instr) (s : State), s.halted = true ∨ s.rst = true → exec i s = .next { s with response := none }

/-- R9, R115, R129, R133: every instruction ends in a next state, whatever the state; a running block answers every
instruction with exactly one response; and with this version's registry that response is one of those R9 and R129 list,
its reply one of the three of R115. Two parts are the model's choice: that a block which is halted or in reset goes on to a
next state, where the spec's step answers None, is log entry 2; that RESERVED7 is answered is log entry 6 (the spec's
decision D10). -/
def Obligations.EveryInstructionIsAnswered : Prop :=
  (∀ (i : Instr) (s : State), ∃ t, exec i s = .next t) ∧
  (∀ (i : Instr) (s : State), Running s → ∃ t r, exec i s = .next t ∧ t.response = some r ∧
    (s.registry = registryTable → r.legal = true))

/-- The frame of all instructions (R13, R16, R29): the registry, the environment's lines and, but for the Shutdown action,
`halted` and the events are as before. -/
def Obligations.OnlyShutdownWritesState : Prop :=
  ∀ (i : Instr) (s t : State), exec i s = .next t →
    t.registry = s.registry ∧ t.rst = s.rst ∧ t.inputs = s.inputs ∧
    (haltsBlock i = false → t.halted = s.halted ∧ t.events = s.events) ∧
    (haltsBlock i = true → Running s → t.halted = true ∧ t.events = s.events ++ [.shutdownRequested])

/-- R9, R116: apart from `halted`, what an instruction does is a function of the instruction and the registry alone: two
running blocks with the same registry give the same response and the same `halted`, whatever went before. -/
def Obligations.NoCrossMessageState : Prop :=
  ∀ (i : Instr) (s s' t t' : State), Running s → Running s' → s.registry = s'.registry →
    exec i s = .next t → exec i s' = .next t' → t.response = t'.response ∧ t.halted = t'.halted

/-- R29: every instruction but the Shutdown action is idempotent: issued again it gives the same response and leaves the
state as it was. -/
def Obligations.NonHaltingInstructionsAreIdempotent : Prop :=
  ∀ (i : Instr) (s t : State), haltsBlock i = false → exec i s = .next t → exec i t = .next t

/-- R32: the content of a wrong-length buffer never influences an instruction, in any state. R15 (the spec's decision D19):
bytes on `req_buf` at offsets from `req_len` on never influence what is decoded; where a byte below `req_len` is not listed
it counts as a 0, which is the model's choice (log entry 5). -/
def Obligations.OnlyBytesInsideARightLengthAreRead : Prop :=
  (∀ (s : State) (b b' : Buffer), b.length = b'.length → b.length ≠ 8 → exec (.canDec b) s = exec (.canDec b') s) ∧
  (∀ (s : State) (b b' : Buffer), b.length = b'.length → b.length ≠ 52 → exec (.sensDec b) s = exec (.sensDec b') s) ∧
  (∀ (s : State) (o : Byte) (b b' : Buffer), b.length = b'.length → b.length ≠ 52 →
    exec (.dispatch o b) s = exec (.dispatch o b') s) ∧
  (∀ (p : ReqPorts) (buf : Buffer), (∀ i, i < p.len → p.buf.getD i 0 = buf.getD i 0) →
    decode (.req p) = decode (.req { p with buf := buf }))

/-! ## Steps, reset and runs -/

/-- A step runs the decoded instruction: what the environment presents next, out of reset, is decoded and executed with that
drive consumed (R33); with nothing presented the block is idle; what is no instruction is refused by name by a running
block and ignored by a halted one (the refusal is the model's, log entry 12). -/
def Obligations.StepRunsThePresentedInstruction : Prop :=
  (∀ (s : State) (rest : List Drive) (p : Presented) (i : Instr), s.inputs = ⟨false, some p⟩ :: rest →
    decode p = .ok i → step s = exec i { s with inputs := rest, rst := false }) ∧
  (∀ (s : State) (rest : List Drive), s.inputs = ⟨false, none⟩ :: rest →
    step s = .next { s with inputs := rest, rst := false, response := none }) ∧
  (∀ s : State, s.inputs = [] → step s = .next { s with rst := false, response := none }) ∧
  (∀ (s : State) (rest : List Drive) (p : Presented) (e : DecodeError), s.inputs = ⟨false, some p⟩ :: rest →
    decode p = .error e →
    step s = if s.halted then .next { s with inputs := rest, rst := false, response := none }
             else .refused (.undecodable e))

/-- R20, R132 (the spec's decisions D7, D12, D23; log entries 9, 16): reset wins over whatever is presented with it, clears `halted`,
drops the request without a response, keeps the registry, and holds `req_ready`, `rsp_valid` and `shutdown_req` at 0. -/
def Obligations.ResetWinsAndClearsHalted : Prop :=
  ∀ (s : State) (rest : List Drive) (q : Option Presented), s.inputs = ⟨true, q⟩ :: rest →
    step s = .next { s with halted := false, rst := true, response := none, inputs := rest } ∧
    ({ s with halted := false, rst := true, response := none, inputs := rest } : State).pins = {}

/-- R20, R21, R22, R145 (the spec's decisions D7, D12; log entries 9, 10, 16): right after reset the block is running with this version's registry, and
the output ports are 0 but for `req_ready`. -/
def Obligations.ResetStateIsRunning : Prop :=
  Running State.reset ∧ State.reset.registry = registryTable ∧ State.reset.response = none ∧
  State.reset.events = [] ∧ State.reset.inputs = [] ∧ State.reset.pins = { reqReady := true }

/-- The invariant holds right after reset (log entry 10 for the events field). -/
def Obligations.ResetMeetsTheInvariant : Prop := State.reset.Inv

/-- R16, R20, R110, R115, R129: every step from every state that meets the invariant gives a state that meets it: the
registry is this version's table, the response is one of those the block can give, a halted block has requested the
shutdown, and a block in reset is silent. -/
def Obligations.StepKeepsTheInvariant : Prop :=
  ∀ s t : State, s.Inv → step s = .next t → t.Inv

/-- R110: `shutdown_req` equals `halted`; a step emits at most one event, exactly when `halted` rises, and that is a step
that dispatches the Shutdown action; and `halted` falls only in a step with `rst = 1`, so that between two resets the
event occurs at most once. That a step of reset leaves the trace of events past is log entry 9 (DEDUCED), not R110. -/
def Obligations.ShutdownRequestFollowsHalted : Prop :=
  (∀ s : State, s.pins.shutdownReq = s.halted) ∧
  (∀ s t : State, step s = .next t →
    (t.events = s.events ∧ (t.halted = true → s.halted = true)) ∨
    (t.events = s.events ++ [.shutdownRequested] ∧ s.halted = false ∧ t.halted = true ∧
      ∃ p i, s.nextDrive = ⟨false, some p⟩ ∧ decode p = .ok i ∧ haltsBlock i = true)) ∧
  (∀ s t : State, step s = .next t → s.halted = true → (t.halted = false ↔ s.nextDrive.rst = true))

/-- R14, R134, R139, R159: a halted block stays halted and silent through every run in which the environment never resets
it, however long and whatever is presented: every such run is a run (no fault, no refusal), its end is halted, and it has
produced no response and no event. That the run goes on from a halted block, where R159 has no step enabled, is log entry 2;
that it goes on also when what is presented is no instruction is log entry 12. -/
def Obligations.HaltedUntilReset : Prop :=
  ∀ (n : Nat) (s : State), RunEnded s → (∀ d ∈ s.inputs.take n, d.rst = false) →
    ∃ t : State, core.run n s = .next t ∧ RunEnded t ∧ t.events = s.events ∧ t.registry = s.registry ∧
      (n ≠ 0 → t.response = none)

/-! ## Encodings -/

/-- Every well-formed instruction is decoded from its encoding, with every operand at every value the encoding admits. -/
def Obligations.DecodeOfEncodeIsTheInstruction : Prop :=
  ∀ i : Instr, i.wf = true → decode (encode i) = .ok i

/-- The decoder gives well-formed instructions only, and it refuses nothing on the request ports that has a length the ports
can carry. -/
def Obligations.DecodedInstructionsAreWellFormed : Prop :=
  (∀ (p : Presented) (i : Instr), decode p = .ok i → i.wf = true) ∧
  (∀ p : ReqPorts, p.len ≤ Config.maxLen → ∃ i, decode (.req p) = .ok i)

/-- Each message and each pseudo-operation pattern stands for one instruction, whose encoding it is; the pattern of a
timestamp of any size is that of its low 24 bits. -/
def Obligations.EncodeOfDecodeIsTheMessage : Prop :=
  (∀ (o : Byte) (p : Buffer) (i : Instr), decode (.msg o p) = .ok i → encode i = .msg o p) ∧
  (∀ (n : BitVec 64) (i : Instr), decode (.pseudo n) = .ok i → encode i = .pseudo n) ∧
  (∀ ts : Word, decode (encode (.tvcBoot ts)) = .ok (.tvcBoot ((ts.extractLsb' 0 24).setWidth 32)) ∧
    decode (encode (.tvcShutdown ts)) = .ok (.tvcShutdown ((ts.extractLsb' 0 24).setWidth 32)) ∧
    decode (encode (.tvcAbort ts)) = .ok (.tvcAbort ((ts.extractLsb' 0 24).setWidth 32)))

/-- R52, R53 (the cover is derived by the spec from R52): for every opcode byte and every payload that the ports can carry,
one of the seven match and mask rows of R53 matches the byte exactly when the decoder reads the message as the NOP_UNKNOWN
of that byte, and exactly when the byte is no `SlaveOpcode`; and the rows and the opcodes `0x00`, `0x01`, `0x02` cover all
256 bytes, each once. -/
def Obligations.UnknownOpcodeRowsPartition : Prop :=
  (∀ (w : Byte) (p : Buffer), p.length ≤ Config.maxLen →
    ((∃ row ∈ unknownOpcodeRows, rowMatches row w = true) ↔
      ∃ u : UnknownOpcode, u.byte = w ∧ decode (.msg w p) = .ok (.nopUnknown u p))) ∧
  (∀ w : Byte, (∃ row ∈ unknownOpcodeRows, rowMatches row w = true) ↔ SlaveOpcode.ofByte w = none) ∧
  (∀ w : Byte, ([0x00#8, 0x01#8, 0x02#8].count w) + unknownOpcodeRows.countP (rowMatches · w) = 1)

/-- Words written out from the spec's encodings (R51, R52, R60) decode to the instructions they stand for. -/
def Obligations.SpecWordsDecode : Prop :=
  decode (.req { op := 0b001#3, dataId := 0x50#8, value := 0x00000001#32, timestamp := 0x0000002A#32 }) =
    .ok (.canEnc 0x50#8 0x00000001#32 0x0000002A#32) ∧
  decode (.req { op := 0b110#3, opcode := 0x02#8, len := 3, buf := [0x01#8, 0x02#8, 0x03#8] }) =
    .ok (.dispatch 0x02#8 [0x01#8, 0x02#8, 0x03#8]) ∧
  decode (.msg 0b00000001#8 []) = .ok (.shutdown []) ∧
  decode (.pseudo 0b0000000000000000000000000000001101100100000000000000000100100011#64) = .ok (.tvcAbort 0x00000123#32)

/-! ## Ports -/

/-- R15 (the spec's decision D2; log entry 16): byte `i` of a buffer port is bits `8i+7 : 8i` and word `k` of a word port
bits `32k+31 : 32k`; a port wider than what it carries is 0 beyond it; and an operation with a buffer operand takes the first
`req_len` bytes of `req_buf`, where a byte that is not listed is 0 (log entry 5). -/
def Obligations.PortsCarryBytesAndWordsInPlace : Prop :=
  (∀ (b : Buffer) (i : Nat), i < 52 → portByte (packBytes b) i = b.getD i 0) ∧
  (∀ (ws : List Word) (k : Nat), k < 13 → portWord (packWords ws) k = ws.getD k 0) ∧
  (∀ p : ReqPorts, p.len ≤ Config.maxLen → ∃ b : Buffer, b.length = p.len ∧ (∀ i, i < p.len → b.getD i 0 = p.buf.getD i 0) ∧
    (p.op = 2 → decode (.req p) = .ok (.canDec b)) ∧ (p.op = 4 → decode (.req p) = .ok (.sensDec b)) ∧
    (p.op = 6 → decode (.req p) = .ok (.dispatch p.opcode b)))

/-- R15, R20, R22 (the spec's decision D12; log entry 16): in every state `req_ready` is acceptance, `rsp_valid` is that there
is a response, and `rsp_ok` is its outcome tag; with `rsp_ok = 0`, and so without a response, every payload port is 0; with a
response of any kind every payload port that is not its own is 0; and in every state that meets the invariant the bytes of
`rsp_buf` at offsets from `rsp_len` on are 0. -/
def Obligations.UnusedResponsePortsAreZero : Prop :=
  (∀ s : State, (s.pins.reqReady = true ↔ Running s) ∧ (s.pins.rspValid = true ↔ s.response ≠ none) ∧
    (s.pins.rspOk = true ↔
      (∃ m, s.response = some (.meaning (some m))) ∨ (∃ b, s.response = some (.frame b)) ∨
      (∃ d v t, s.response = some (.canResult (.valid d v t))) ∨ (∃ b, s.response = some (.sensorBytes b)) ∨
      (∃ r, s.response = some (.sensorResult (.ok r))) ∨ (∃ b, s.response = some (.commandBytes b)) ∨
      (∃ b, s.response = some (.dispatchResult (.reply b)))) ∧
    (s.pins.rspOk = false → s.pins.rspLen = 0 ∧ s.pins.rspBuf = 0 ∧ s.pins.rspDataId = 0 ∧ s.pins.rspValue = 0 ∧
      s.pins.rspTimestamp = 0 ∧ s.pins.rspWords = 0 ∧ s.pins.rspBand = 0)) ∧
  (∀ (s : State) (r : Response), s.response = some r →
    ((∀ m, r ≠ .meaning (some m)) → s.pins.rspBand = 0) ∧
    ((∀ d v t, r ≠ .canResult (.valid d v t)) → s.pins.rspDataId = 0 ∧ s.pins.rspValue = 0 ∧ s.pins.rspTimestamp = 0) ∧
    ((∀ rec, r ≠ .sensorResult (.ok rec)) → s.pins.rspWords = 0) ∧
    ((∀ b, r ≠ .frame b ∧ r ≠ .sensorBytes b ∧ r ≠ .commandBytes b ∧ r ≠ .dispatchResult (.reply b)) →
      s.pins.rspLen = 0 ∧ s.pins.rspBuf = 0)) ∧
  (∀ (s : State) (k : Nat), s.Inv → s.pins.rspLen.toNat ≤ k → portByte s.pins.rspBuf k = 0)

/-! ## The clocked block -/

/-- R15, R155, R158 (the spec's decisions D2, D16; log entry 15): a request on the ports of a block that is ready is accepted
and is answered in the `LAT`-th cycle after, with exactly what the instruction does, whatever the request ports carry in
those cycles (they are asked to be stable only until acceptance), as long as there is no reset; until then the block is not
ready, gives no response and is otherwise as before. -/
def Obligations.ClockedRequestIsAnsweredAfterLat : Prop :=
  ∀ (lat : Nat) (c : Clocked) (p : ReqPorts) (i : Instr) (later : List InPins), c.block.halted = false → c.flight = none →
    decode (.req p) = .ok i → (∀ j ∈ later, j.rst = false) → later.length = lat →
    let asked : InPins := ⟨false, true, p⟩
    c.ready asked = true ∧
    (∀ n, n < lat → ∃ f, c.cycles lat (asked :: later.take n) = ⟨{ c.block with rst := false, response := none }, some f⟩ ∧
      f.instr = i ∧ f.left + n + 1 = lat ∧ ∀ j, (c.cycles lat (asked :: later.take n)).ready j = false) ∧
    (∃ t, exec i { c.block with rst := false, response := none } = .next t ∧
      c.cycles lat (asked :: later) = ⟨t, none⟩)

/-- R20, R132 (the spec's decisions D7, D12, D23; log entries 9, 15, 16): a cycle with `rst = 1` drops a request in flight without a response, whatever
it is, clears `halted` and holds `req_ready`, `rsp_valid` and `shutdown_req` at 0. -/
def Obligations.ClockedResetDropsTheRequest : Prop :=
  ∀ (lat : Nat) (c : Clocked) (i : InPins), i.rst = true →
    (c.tick lat i).flight = none ∧ (c.tick lat i).block.halted = false ∧
    (c.tick lat i).block.events = c.block.events ∧ (c.tick lat i).block.registry = c.block.registry ∧
    c.pins lat i = {}

/-- R15, R110, R111 (the spec's decision D6; that unused ports are 0 is D12; log entries 3, 15, 16): a halted clocked block is
not ready in any cycle; a cycle without reset starts nothing, emits nothing and answers nothing, and `shutdown_req` is the
only output that is 1, whatever stands on the request ports; so it stays through any number of such cycles. That a halted
block has no request in flight, every cycle keeps. -/
def Obligations.HaltedClockedBlockIsSilent : Prop :=
  (∀ (lat : Nat) (c : Clocked) (i : InPins), c.block.halted = true → c.ready i = false ∧
    (i.rst = false → (c.tick lat i).block = { c.block with rst := false, response := none } ∧
      (c.flight = none → (c.tick lat i).flight = none) ∧ c.pins lat i = { shutdownReq := true })) ∧
  (∀ (lat : Nat) (c : Clocked) (is : List InPins), c.block.halted = true → is ≠ [] → (∀ i ∈ is, i.rst = false) →
    (c.cycles lat is).block = { c.block with rst := false, response := none } ∧
    (c.flight = none → (c.cycles lat is).flight = none)) ∧
  (∀ (lat : Nat) (c : Clocked) (i : InPins), (c.block.halted = true → c.flight = none) →
    ((c.tick lat i).block.halted = true → (c.tick lat i).flight = none))
end

