-- ==== Sys2Proof/Laws/Codec.lean ====
section
/-! SUPPORT. One lemma for what each function of the codecs returns: lengths, words, the default command; and the bound on
a buffer's length. -/

namespace Sys2Proof

theorem maxLen_ge : 63 ≤ Config.maxLen := by
  have : 2 ^ 6 ≤ 2 ^ Config.lenW := Nat.pow_le_pow_right (by decide) (by simp [Config.lenW])
  simp only [Config.maxLen]; omega

/-- The operand of PAYLOAD made of its own bytes is itself. -/
@[simp] theorem fullPayload_toList (p : Vector Byte 52) (h : p.toList.length = 52) : fullPayload p.toList h = p := by
  obtain ⟨a, ha⟩ := p
  simp [fullPayload]

/-- The bytes of the operand made of a buffer are the buffer. -/
@[simp] theorem toList_fullPayload (b : Buffer) (h : b.length = 52) : (fullPayload b h).toList = b := by
  simp [fullPayload]

/-- The bound on a buffer is `MAXLEN`, and nothing else. -/
theorem lenFits_iff (n : Nat) : lenFits n = true ↔ n ≤ Config.maxLen := by
  have := maxLen_ge
  simp only [lenFits, Bool.or_eq_true, decide_eq_true_eq]
  omega

@[simp] theorem portBuffer_length (b : Buffer) (n : Nat) : (portBuffer b n).length = n := by simp [portBuffer]

/-- The bytes of a buffer on its own port are its bytes. -/
@[simp] theorem portBuffer_self (b : Buffer) : portBuffer b b.length = b := by
  apply List.ext_getElem <;> simp +contextual [portBuffer, byteAt]

@[simp] theorem serBytes_length (o : SerialOrder) (v : Word) : (serBytes o v).length = 4 := by cases o <;> rfl

@[simp] theorem serBytes_zero (o : SerialOrder) : serBytes o 0#32 = [0#8, 0#8, 0#8, 0#8] := by cases o <;> decide

namespace Machine

@[simp] theorem canEncode_length (d : Byte) (v t : Word) : (canEncode d v t).length = 8 := rfl

@[simp] theorem encodeWords_nil (o : SerialOrder) : encodeWords o [] = [] := rfl

@[simp] theorem encodeWords_cons (o : SerialOrder) (w : Word) (ws : List Word) :
    encodeWords o (w :: ws) = serBytes o w ++ encodeWords o ws := by simp [encodeWords]

theorem encodeWords_length (o : SerialOrder) (ws : List Word) : (encodeWords o ws).length = 4 * ws.length := by
  induction ws with
  | nil => rfl
  | cons w ws ih => simp [ih]; omega

@[simp] theorem encodeSensor_length (o : SerialOrder) (r : SensorRecord) : (encodeSensor o r).length = 52 := by
  simp [encodeSensor, SensorRecord.words]

@[simp] theorem encodeCommand_length (o : SerialOrder) (c : CommandRecord) : (encodeCommand o c).length = 24 := by
  simp [encodeCommand, CommandRecord.words]

/-- The default command is 24 zero bytes, in either byte order and for every sensor record. -/
@[simp] theorem encodeCommand_cmdDerive (o : SerialOrder) (r : SensorRecord) :
    encodeCommand o (cmdDerive r) = List.replicate 24 0x00#8 := by
  simp [encodeCommand, cmdDerive, CommandRecord.words, List.replicate]

/-- A known data-ID gets its band and itself. -/
theorem resolve_eq_map (r : Registry) (id : Byte) :
    resolve r id = (registryLookup r id).map fun band => ⟨band, id⟩ := by
  unfold resolve; cases registryLookup r id <;> rfl

end Machine
end Sys2Proof
end

