-- ==== Sys2Proof/Laws/State.lean ====
section
/-! SUPPORT. One lemma for each field under each update of the state, so that no later proof unfolds an update. -/

namespace Sys2Proof.Machine

@[simp] theorem State.answer_halted (s : State) (r : Response) : (s.answer r).halted = s.halted := rfl
@[simp] theorem State.answer_registry (s : State) (r : Response) : (s.answer r).registry = s.registry := rfl
@[simp] theorem State.answer_rst (s : State) (r : Response) : (s.answer r).rst = s.rst := rfl
@[simp] theorem State.answer_inputs (s : State) (r : Response) : (s.answer r).inputs = s.inputs := rfl
@[simp] theorem State.answer_response (s : State) (r : Response) : (s.answer r).response = some r := rfl
@[simp] theorem State.answer_events (s : State) (r : Response) : (s.answer r).events = s.events := rfl

@[simp] theorem State.noResponse_halted (s : State) : (s.noResponse).halted = s.halted := rfl
@[simp] theorem State.noResponse_registry (s : State) : (s.noResponse).registry = s.registry := rfl
@[simp] theorem State.noResponse_rst (s : State) : (s.noResponse).rst = s.rst := rfl
@[simp] theorem State.noResponse_inputs (s : State) : (s.noResponse).inputs = s.inputs := rfl
@[simp] theorem State.noResponse_response (s : State) : (s.noResponse).response = none := rfl
@[simp] theorem State.noResponse_events (s : State) : (s.noResponse).events = s.events := rfl

@[simp] theorem State.requestShutdown_halted (s : State) : (s.requestShutdown).halted = true := rfl
@[simp] theorem State.requestShutdown_registry (s : State) : (s.requestShutdown).registry = s.registry := rfl
@[simp] theorem State.requestShutdown_rst (s : State) : (s.requestShutdown).rst = s.rst := rfl
@[simp] theorem State.requestShutdown_inputs (s : State) : (s.requestShutdown).inputs = s.inputs := rfl
@[simp] theorem State.requestShutdown_response (s : State) : (s.requestShutdown).response = s.response := rfl
@[simp] theorem State.requestShutdown_events (s : State) : (s.requestShutdown).events = s.events ++ [.shutdownRequested] := rfl

@[simp] theorem State.applyReset_halted (s : State) : (s.applyReset).halted = false := rfl
@[simp] theorem State.applyReset_registry (s : State) : (s.applyReset).registry = s.registry := rfl
@[simp] theorem State.applyReset_rst (s : State) : (s.applyReset).rst = s.rst := rfl
@[simp] theorem State.applyReset_inputs (s : State) : (s.applyReset).inputs = s.inputs := rfl
@[simp] theorem State.applyReset_response (s : State) : (s.applyReset).response = none := rfl
@[simp] theorem State.applyReset_events (s : State) : (s.applyReset).events = s.events := rfl

@[simp] theorem State.driven_halted (s : State) : (s.driven).halted = s.halted := rfl
@[simp] theorem State.driven_registry (s : State) : (s.driven).registry = s.registry := rfl
@[simp] theorem State.driven_rst (s : State) : (s.driven).rst = s.nextDrive.rst := rfl
@[simp] theorem State.driven_inputs (s : State) : (s.driven).inputs = s.inputs.tail := rfl
@[simp] theorem State.driven_response (s : State) : (s.driven).response = s.response := rfl
@[simp] theorem State.driven_events (s : State) : (s.driven).events = s.events := rfl

@[simp] theorem State.place_halted (s : State) (p : Presented) : (s.place p).halted = s.halted := rfl
@[simp] theorem State.place_registry (s : State) (p : Presented) : (s.place p).registry = s.registry := rfl
@[simp] theorem State.place_rst (s : State) (p : Presented) : (s.place p).rst = s.rst := rfl
@[simp] theorem State.place_inputs (s : State) (p : Presented) : (s.place p).inputs = ⟨false, some p⟩ :: s.inputs := rfl
@[simp] theorem State.place_response (s : State) (p : Presented) : (s.place p).response = s.response := rfl
@[simp] theorem State.place_events (s : State) (p : Presented) : (s.place p).events = s.events := rfl

@[simp] theorem State.withFetchWord_halted (s : State) (n w : Nat) : (s.withFetchWord n w).halted = s.halted := rfl
@[simp] theorem State.withFetchWord_registry (s : State) (n w : Nat) : (s.withFetchWord n w).registry = s.registry := rfl
@[simp] theorem State.withFetchWord_rst (s : State) (n w : Nat) : (s.withFetchWord n w).rst = s.rst := rfl
@[simp] theorem State.withFetchWord_inputs (s : State) (n w : Nat) : (s.withFetchWord n w).inputs = ⟨false, some (presentedOfTableWord n w)⟩ :: s.inputs := rfl
@[simp] theorem State.withFetchWord_response (s : State) (n w : Nat) : (s.withFetchWord n w).response = s.response := rfl
@[simp] theorem State.withFetchWord_events (s : State) (n w : Nat) : (s.withFetchWord n w).events = s.events := rfl

@[simp] theorem State.place_nextDrive (s : State) (p : Presented) : (s.place p).nextDrive = ⟨false, some p⟩ := rfl

@[simp] theorem State.reset_halted : State.reset.halted = false := rfl
@[simp] theorem State.reset_registry : State.reset.registry = registryTable := rfl
@[simp] theorem State.reset_rst : State.reset.rst = false := rfl
@[simp] theorem State.reset_inputs : State.reset.inputs = [] := rfl
@[simp] theorem State.reset_response : State.reset.response = none := rfl
@[simp] theorem State.reset_events : State.reset.events = [] := rfl

end Sys2Proof.Machine
end

