-- ==== Sys2Proof/Laws/Ops.lean ====
section
/-! SUPPORT. What each shared operation can do, said once: acceptance, the routing of DISPATCH, one step. -/

namespace Sys2Proof.Machine

theorem accepts_iff_running (s : State) : s.accepts = true ↔ Running s := by
  cases h : s.halted <;> cases h' : s.rst <;> simp [State.accepts, Running, h, h']

theorem accepts_of_running {s : State} (h : Running s) : s.accepts = true := (accepts_iff_running s).2 h

theorem not_accepts_of_halted {s : State} (h : s.halted = true) : s.accepts = false := by
  simp [State.accepts, h]

/-- An accepted request acts. -/
theorem accept_of_running {s : State} (act : State → State) (h : Running s) : accept s act = .next (act s) := by
  simp [accept, accepts_of_running h]

/-- A request that is not accepted changes nothing and gets no response. -/
theorem accept_of_not_accepts {s : State} (act : State → State) (h : s.accepts = false) :
    accept s act = .next s.noResponse := by
  simp [accept, h]

/-- Everything `accept` can do. -/
theorem accept_cases {s t : State} {act : State → State} (h : accept s act = .next t) :
    (Running s ∧ t = act s) ∨ (s.accepts = false ∧ t = s.noResponse) := by
  cases hs : s.accepts with
  | true =>
    rw [accept_of_running act ((accepts_iff_running s).1 hs)] at h
    exact .inl ⟨(accepts_iff_running s).1 hs, by injection h with h; exact h.symm⟩
  | false =>
    rw [accept_of_not_accepts act hs] at h
    exact .inr ⟨rfl, by injection h with h; exact h.symm⟩

/-- Every presentation of a request ends in a next state. -/
theorem accept_next (s : State) (act : State → State) : ∃ t, accept s act = .next t := by
  unfold accept; split <;> exact ⟨_, rfl⟩

/-- What is presented without being an instruction is refused by a running block, and ignored by any other. -/
theorem refuseUndecodable_cases (e : DecodeError) (s : State) :
    (s.accepts = true ∧ refuseUndecodable e s = .refused (.undecodable e)) ∨
    (s.accepts = false ∧ refuseUndecodable e s = .next s.noResponse) := by
  cases h : s.accepts <;> simp [refuseUndecodable, h]

/-- Everything a step can do when it answers a next state: reset, idle, ignore what a block that accepts nothing is
presented, or execute. -/
theorem step_cases {s t : State} (h : step s = .next t) :
    (s.nextDrive.rst = true ∧ t = s.driven.applyReset) ∨
    (s.nextDrive.rst = false ∧ t = s.driven.noResponse ∧
      (s.nextDrive.req = none ∨ s.driven.accepts = false)) ∨
    (s.nextDrive.rst = false ∧ ∃ p i, s.nextDrive.req = some p ∧ decode p = .ok i ∧ exec i s.driven = .next t) := by
  unfold step at h
  cases hr : s.nextDrive.rst with
  | true => simp [hr] at h; exact .inl ⟨rfl, h.symm⟩
  | false =>
    simp only [hr] at h
    cases hq : s.nextDrive.req with
    | none => simp [hq] at h; exact .inr (.inl ⟨rfl, h.symm, .inl rfl⟩)
    | some p =>
      cases hd : decode p with
      | ok i => simp [hq, hd] at h; exact .inr (.inr ⟨rfl, p, i, rfl, hd, h⟩)
      | error e =>
        simp only [hq, hd] at h
        obtain ⟨_, hu⟩ | ⟨ha, hu⟩ := refuseUndecodable_cases e s.driven
        · simp [hu] at h
        · simp [hu] at h; exact .inr (.inl ⟨rfl, h.symm, .inr ha⟩)

end Sys2Proof.Machine
end

