-- ==== Sys2Proof/Laws/Exec.lean ====
section
/-! SUPPORT. What an instruction does once it is accepted, and that every meaning is its presentation. -/

namespace Sys2Proof.Machine

/-- The effect of an accepted instruction. -/
def action : Instr → State → State
  | .resolve id => fun s => s.answer (.meaning (resolve s.registry id))
  | .canEnc d v t => fun s => s.answer (.frame (canEncode d v t))
  | .canDec b => fun s => s.answer (.canResult (canDecode b))
  | .sensEnc r => fun s => s.answer (.sensorBytes (encodeSensor Config.serialOrder r))
  | .sensDec b => fun s => s.answer (.sensorResult (decodeSensor Config.serialOrder b))
  | .cmdEnc c => fun s => s.answer (.commandBytes (encodeCommand Config.serialOrder c))
  | .dispatch o p => actDispatch o p
  | .reserved7 => fun s => s.answer .nothing
  | .ping _ => actPing
  | .shutdown _ => actShutdown
  | .payload p => actPayload p
  | .payloadBadlen _ => actPayloadBadlen
  | .nopUnknown _ _ => actNopUnknown
  | .tvcBoot ts => fun s => s.answer (.frame (canEncode tvcCommandId tvcBootCode ts))
  | .tvcShutdown ts => fun s => s.answer (.frame (canEncode tvcCommandId tvcShutdownCode ts))
  | .tvcAbort ts => fun s => s.answer (.frame (canEncode tvcCommandId tvcAbortCode ts))

/-- Every meaning presents its action: provers cite this and `accept_cases` instead of unfolding a meaning. -/
theorem exec_eq_accept (i : Instr) (s : State) : exec i s = accept s (action i) := by cases i <;> rfl

/-- A running block executes. -/
theorem exec_of_running {s : State} (i : Instr) (h : Running s) : exec i s = .next (action i s) := by
  rw [exec_eq_accept, accept_of_running _ h]

/-- The five things DISPATCH can do. -/
theorem actDispatch_cases (o : Byte) (p : Buffer) (s : State) :
    (o = 0x00#8 ∧ actDispatch o p s = actPing s) ∨
    (o = 0x01#8 ∧ actDispatch o p s = actShutdown s) ∨
    (o = 0x02#8 ∧ ∃ h : p.length = 52, actDispatch o p s = actPayload (fullPayload p h) s) ∨
    (o = 0x02#8 ∧ p.length ≠ 52 ∧ actDispatch o p s = actPayloadBadlen s) ∨
    ((o ≠ 0x00#8 ∧ o ≠ 0x01#8 ∧ o ≠ 0x02#8) ∧ actDispatch o p s = actNopUnknown s) := by
  by_cases h0 : o = 0x00#8
  · exact .inl ⟨h0, by simp [actDispatch, SlaveOpcode.ofByte, h0]⟩
  by_cases h1 : o = 0x01#8
  · exact .inr (.inl ⟨h1, by simp [actDispatch, SlaveOpcode.ofByte, h1]⟩)
  by_cases h2 : o = 0x02#8
  · by_cases h : p.length = 52
    · exact .inr (.inr (.inl ⟨h2, h, by simp [actDispatch, SlaveOpcode.ofByte, h2, h]⟩))
    · exact .inr (.inr (.inr (.inl ⟨h2, h, by simp [actDispatch, SlaveOpcode.ofByte, h2, h]⟩)))
  · exact .inr (.inr (.inr (.inr ⟨⟨h0, h1, h2⟩, by simp [actDispatch, SlaveOpcode.ofByte, h0, h1, h2]⟩)))

/-- PAYLOAD replies with the zero command. -/
theorem actPayload_eq (p : Vector Byte 52) (s : State) :
    actPayload p s = s.answer (.dispatchResult (.reply (List.replicate 24 0x00#8))) := by simp [actPayload]

/-- Every action leaves the registry and the environment's lines alone and answers; only the Shutdown action halts and emits
the event. -/
theorem action_spec (i : Instr) (s : State) :
    (action i s).registry = s.registry ∧ (action i s).rst = s.rst ∧ (action i s).inputs = s.inputs ∧
    (∃ r, (action i s).response = some r) ∧
    ((haltsBlock i = true ∧ (action i s).halted = true ∧ (action i s).events = s.events ++ [.shutdownRequested]) ∨
     (haltsBlock i = false ∧ (action i s).halted = s.halted ∧ (action i s).events = s.events)) := by
  cases i with
  | dispatch o p =>
    obtain ⟨h, e⟩ | ⟨h, e⟩ | ⟨h, _, e⟩ | ⟨h, _, e⟩ | ⟨⟨_, h, _⟩, e⟩ := actDispatch_cases o p s <;>
      (simp only [action, e]
       simp [h, haltsBlock, actPing, actShutdown, actPayload, actPayloadBadlen, actNopUnknown])
  | _ => simp [action, haltsBlock, actPing, actShutdown, actPayload, actPayloadBadlen, actNopUnknown]

end Sys2Proof.Machine
end

