-- ==== Sys2Proof/Laws/Clocked.lean ====
section
/-! SUPPORT. What one clock cycle can do, said once, and how cycles follow each other. -/

namespace Sys2Proof.Machine

@[simp] theorem Clocked.cycles_nil (c : Clocked) (lat : Nat) : c.cycles lat [] = c := rfl
@[simp] theorem Clocked.cycles_cons (c : Clocked) (lat : Nat) (i : InPins) (is : List InPins) :
    c.cycles lat (i :: is) = (c.tick lat i).cycles lat is := rfl

/-- Cycles after cycles. -/
theorem Clocked.cycles_append (c : Clocked) (lat : Nat) (is js : List InPins) :
    c.cycles lat (is ++ js) = (c.cycles lat is).cycles lat js := by
  induction is generalizing c with
  | nil => rfl
  | cons i is ih => simp [ih]

/-- A request completes as the machine executes it. -/
theorem Clocked.complete_of_exec {i : Instr} {b t : State} (h : exec i b = .next t) :
    Clocked.complete i b = ⟨t, none⟩ := by
  simp [Clocked.complete, h]

/-- A request completes in a next state, and nothing is in flight then. -/
theorem Clocked.complete_eq (i : Instr) (b : State) : ∃ t, exec i b = .next t ∧ Clocked.complete i b = ⟨t, none⟩ := by
  obtain ⟨t, h⟩ := accept_next b (action i)
  rw [← exec_eq_accept] at h
  exact ⟨t, h, Clocked.complete_of_exec h⟩

/-- Everything a cycle can do: reset, answer the request in flight, go on with it, accept a request, or idle. -/
theorem Clocked.tick_cases (c : Clocked) (lat : Nat) (i : InPins) :
    let b : State := { c.block with rst := i.rst, response := none }
    (i.rst = true ∧ c.tick lat i = ⟨b.applyReset, none⟩) ∨
    (i.rst = false ∧ ∃ instr, c.flight = some ⟨instr, 0⟩ ∧ c.tick lat i = Clocked.complete instr b) ∨
    (i.rst = false ∧ ∃ instr n, c.flight = some ⟨instr, n + 1⟩ ∧ c.tick lat i = ⟨b, some ⟨instr, n⟩⟩) ∨
    (i.rst = false ∧ c.flight = none ∧ c.block.halted = false ∧ i.reqValid = true ∧
      ∃ instr, decode (.req i.ports) = .ok instr ∧ c.tick lat i = Clocked.launch lat instr b) ∨
    (i.rst = false ∧ c.flight = none ∧ c.tick lat i = ⟨b, none⟩) := by
  intro b
  cases hr : i.rst with
  | true => exact .inl ⟨rfl, by simp [Clocked.tick, hr, b]⟩
  | false =>
    cases hf : c.flight with
    | some f =>
      obtain ⟨instr, n⟩ := f
      cases n with
      | zero => exact .inr (.inl ⟨rfl, instr, rfl, by simp [Clocked.tick, hr, hf, b]⟩)
      | succ n => exact .inr (.inr (.inl ⟨rfl, instr, n, rfl, by simp [Clocked.tick, hr, hf, b]⟩))
    | none =>
      cases hv : i.reqValid <;> cases hh : c.block.halted <;> cases hd : decode (.req i.ports) <;>
        simp [Clocked.tick, Clocked.ready, hr, hf, hv, hh, hd, b]

end Sys2Proof.Machine
end

