-- ==== Sys2Proof/Laws/Operands.lean ====
section
/-! SUPPORT. The field reads and writes invert each other, and the packing of bytes and words on a port. -/

namespace Sys2Proof

/-! ### A word and its bytes -/

theorem join_bytes4 (v : Word) :
    v.extractLsb' 24 8 ++ v.extractLsb' 16 8 ++ v.extractLsb' 8 8 ++ v.extractLsb' 0 8 = v := by
  ext i hi
  simp only [BitVec.getElem_append, BitVec.getElem_extractLsb']
  split_ifs <;> (rw [BitVec.getLsbD_eq_getElem (by omega)]; congr 1; omega)

theorem join_bytes3 (v : Word) :
    v.extractLsb' 16 8 ++ v.extractLsb' 8 8 ++ v.extractLsb' 0 8 = v.extractLsb' 0 24 := by
  ext i hi
  simp only [BitVec.getElem_append, BitVec.getElem_extractLsb']
  split_ifs <;> congr 1 <;> omega

theorem beBytes4_append (a b c d : Byte) : beBytes4 (a ++ b ++ c ++ d) = [a, b, c, d] := by
  simp only [beBytes4, List.cons.injEq, and_true]
  refine ⟨?_, ?_, ?_, ?_⟩ <;>
    (ext i hi
     simp only [BitVec.getElem_extractLsb', BitVec.getLsbD_append]
     split_ifs <;> first
       | omega
       | (rw [BitVec.getLsbD_eq_getElem (by omega)]; congr 1; omega))

theorem leBytes4_append (a b c d : Byte) : leBytes4 (d ++ c ++ b ++ a) = [a, b, c, d] := by
  have h := beBytes4_append d c b a
  simp only [beBytes4, List.cons.injEq, and_true] at h
  obtain ⟨h3, h2, h1, h0⟩ := h
  simp only [leBytes4, h0, h1, h2, h3]

theorem beBytes3_append (a b c : Byte) : beBytes3 (a ++ b ++ c) = [a, b, c] := by
  simp only [beBytes3, List.cons.injEq, and_true]
  refine ⟨?_, ?_, ?_⟩ <;>
    (ext i hi
     simp only [BitVec.getElem_extractLsb', BitVec.getLsbD_append]
     split_ifs <;> first
       | omega
       | (rw [BitVec.getLsbD_eq_getElem (by omega)]; congr 1; omega))

/-- The three bytes of a truncated timestamp are bytes of the timestamp. -/
theorem beBytes3_setWidth (t : Word) :
    beBytes3 (t.setWidth 24) = [t.extractLsb' 16 8, t.extractLsb' 8 8, t.extractLsb' 0 8] := by
  rw [BitVec.setWidth_eq_extractLsb' (by decide), ← join_bytes3, beBytes3_append]

/-- Reading a word where it was written gives the word, in either byte order. -/
theorem ser_serBytes (o : SerialOrder) (v : Word) (b : Buffer) : ser o (serBytes o v ++ b) 0 = v := by
  cases o <;> simp [ser, serBytes, le32, be32, leBytes4, beBytes4, byteAt, join_bytes4]

/-- Writing a word that was read gives the bytes it was read from, in either byte order. -/
theorem serBytes_ser (o : SerialOrder) (b : Buffer) (off : Nat) :
    serBytes o (ser o b off) = [byteAt b off, byteAt b (off + 1), byteAt b (off + 2), byteAt b (off + 3)] := by
  cases o
  · exact leBytes4_append _ _ _ _
  · exact beBytes4_append _ _ _ _

/-- A word further on in a buffer is the word at that place of what follows the first bytes. -/
theorem ser_append (o : SerialOrder) (a b : Buffer) (off : Nat) (h : a.length ≤ off) :
    ser o (a ++ b) off = ser o b (off - a.length) := by
  have hb : ∀ k, byteAt (a ++ b) (off + k) = byteAt b (off - a.length + k) := by
    intro k
    have h1 : ¬ off + k < a.length := by omega
    have h2 : off + k - a.length = off - a.length + k := by omega
    simp [byteAt, List.getElem?_append, h1, h2]
  have h0 := hb 0
  simp only [Nat.add_zero] at h0
  cases o <;> simp only [ser, le32, be32, hb, h0]

/-! ### Ports -/

/-- Word `k` of a word port is word `k` of what was put on it. -/
theorem portWord_packWords (ws : List Word) (k : Nat) (hk : k < 13) : portWord (packWords ws) k = ws.getD k 0 := by
  induction ws generalizing k with
  | nil => simp [portWord, packWords]
  | cons w ws ih =>
    cases k with
    | zero =>
      simp only [portWord, packWords]
      ext i hi
      simp only [BitVec.getElem_extractLsb', BitVec.getLsbD_or, BitVec.getLsbD_shiftLeft, BitVec.getLsbD_setWidth]
      simp [hi, BitVec.getLsbD_eq_getElem]; omega
    | succ k =>
      have := ih k (by omega)
      simp only [List.getD_cons_succ, ← this]
      simp only [portWord, packWords]
      ext i hi
      simp only [BitVec.getElem_extractLsb', BitVec.getLsbD_or, BitVec.getLsbD_shiftLeft, BitVec.getLsbD_setWidth]
      have h1 : ¬ 32 * (k + 1) + i < 32 := by omega
      have h2 : 32 * (k + 1) + i < 416 := by omega
      have h3 : 32 * (k + 1) + i - 32 = 32 * k + i := by omega
      have h4 : w.getLsbD (32 * (k + 1) + i) = false := BitVec.getLsbD_of_ge _ _ (by omega)
      simp [h1, h2, h3, h4]

/-- Byte `i` of a buffer port is byte `i` of what was put on it. -/
theorem portByte_packBytes (b : Buffer) (i : Nat) (hi : i < 52) : portByte (packBytes b) i = byteAt b i := by
  induction b generalizing i with
  | nil => simp [portByte, packBytes, byteAt]
  | cons x b ih =>
    cases i with
    | zero =>
      simp only [portByte, packBytes]
      ext j hj
      simp only [BitVec.getElem_extractLsb', BitVec.getLsbD_or, BitVec.getLsbD_shiftLeft, BitVec.getLsbD_setWidth]
      simp [hj, byteAt, BitVec.getLsbD_eq_getElem]; omega
    | succ i =>
      have := ih i (by omega)
      simp only [byteAt, List.getD_cons_succ] at this ⊢
      rw [← this]
      simp only [portByte, packBytes]
      ext j hj
      simp only [BitVec.getElem_extractLsb', BitVec.getLsbD_or, BitVec.getLsbD_shiftLeft, BitVec.getLsbD_setWidth]
      have h1 : ¬ 8 * (i + 1) + j < 8 := by omega
      have h2 : 8 * (i + 1) + j < 416 := by omega
      have h3 : 8 * (i + 1) + j - 8 = 8 * i + j := by omega
      have h4 : x.getLsbD (8 * (i + 1) + j) = false := BitVec.getLsbD_of_ge _ _ (by omega)
      simp [h1, h2, h3, h4]

end Sys2Proof
end

