-- ==== Sys2Proof/Laws/PerInstr.lean ====
section
/-! SUPPORT. A per-instruction family about instructions as syntax: each is encoded in the format of its row of
spec/opcode_table.json. -/

namespace Sys2Proof.Laws

/-- The three formats of spec/opcode_table.json. -/
inductive Format where
  | req
  | msg
  | canframe
deriving DecidableEq, Repr

/-- The format something presented is in. -/
def Format.ofPresented : Presented → Format
  | .req _ => .req
  | .msg _ _ => .msg
  | .pseudo _ => .canframe

/-- The format of an instruction's row (30_encoding.md R51, R52, R60). -/
def Format.ofInstr : Instr → Format
  | .resolve _ => .req
  | .canEnc _ _ _ => .req
  | .canDec _ => .req
  | .sensEnc _ => .req
  | .sensDec _ => .req
  | .cmdEnc _ => .req
  | .dispatch _ _ => .req
  | .reserved7 => .req
  | .ping _ => .msg
  | .shutdown _ => .msg
  | .payload _ => .msg
  | .payloadBadlen _ => .msg
  | .nopUnknown _ _ => .msg
  | .tvcBoot _ => .canframe
  | .tvcShutdown _ => .canframe
  | .tvcAbort _ => .canframe

/-- The encoder keeps to the format of the instruction's row. -/
def EncodeFormat.Statement (i : Instr) : Prop := Format.ofPresented (encode i) = Format.ofInstr i

theorem EncodeFormat.resolve (id : Byte) : EncodeFormat.Statement (.resolve id) := rfl
theorem EncodeFormat.canEnc (d : Byte) (v t : Word) : EncodeFormat.Statement (.canEnc d v t) := rfl
theorem EncodeFormat.canDec (b : Buffer) : EncodeFormat.Statement (.canDec b) := rfl
theorem EncodeFormat.sensEnc (r : SensorRecord) : EncodeFormat.Statement (.sensEnc r) := rfl
theorem EncodeFormat.sensDec (b : Buffer) : EncodeFormat.Statement (.sensDec b) := rfl
theorem EncodeFormat.cmdEnc (c : CommandRecord) : EncodeFormat.Statement (.cmdEnc c) := rfl
theorem EncodeFormat.dispatch (o : Byte) (p : Buffer) : EncodeFormat.Statement (.dispatch o p) := rfl
theorem EncodeFormat.reserved7 : EncodeFormat.Statement .reserved7 := rfl
theorem EncodeFormat.ping (p : Buffer) : EncodeFormat.Statement (.ping p) := rfl
theorem EncodeFormat.shutdown (p : Buffer) : EncodeFormat.Statement (.shutdown p) := rfl
theorem EncodeFormat.payload (p : Vector Byte 52) : EncodeFormat.Statement (.payload p) := rfl
theorem EncodeFormat.payloadBadlen (p : BadLenPayload) : EncodeFormat.Statement (.payloadBadlen p) := rfl
theorem EncodeFormat.nopUnknown (o : UnknownOpcode) (p : Buffer) : EncodeFormat.Statement (.nopUnknown o p) := rfl
theorem EncodeFormat.tvcBoot (ts : Word) : EncodeFormat.Statement (.tvcBoot ts) := rfl
theorem EncodeFormat.tvcShutdown (ts : Word) : EncodeFormat.Statement (.tvcShutdown ts) := rfl
theorem EncodeFormat.tvcAbort (ts : Word) : EncodeFormat.Statement (.tvcAbort ts) := rfl

end Sys2Proof.Laws
end

