-- ==== Sys2Proof/Laws/Pins.lean ====
section
/-! SUPPORT. Each output port as a function of the response, so that no later proof unfolds the pin view; and the bytes of the
request buffer. -/

namespace Sys2Proof

/-- The first bytes of a buffer port are the first bytes listed, when that many are. -/
theorem portBuffer_eq_take (b : Buffer) (n : Nat) (h : n ≤ b.length) : portBuffer b n = b.take n := by
  apply List.ext_getElem
  · simp [portBuffer, h]
  · intro i h1 h2
    have hi : i < b.length := by simp at h2; omega
    simp [portBuffer, byteAt, hi]

/-- A byte beyond those put on a buffer port is 0. -/
theorem portByte_packBytes_of_length_le (b : Buffer) (i : Nat) (h : b.length ≤ i) : portByte (packBytes b) i = 0 := by
  by_cases hi : i < 52
  · rw [portByte_packBytes b i hi]; simp [byteAt, h]
  · ext j hj
    simp only [portByte, BitVec.getElem_extractLsb']
    rw [BitVec.getLsbD_of_ge _ _ (by omega)]; simp

namespace Machine

@[simp] theorem State.pins_reqReady (s : State) : s.pins.reqReady = s.accepts := rfl
@[simp] theorem State.pins_shutdownReq (s : State) : s.pins.shutdownReq = s.halted := rfl

/-- Without a response the response ports are 0. -/
theorem State.pins_of_no_response {s : State} (h : s.response = none) :
    s.pins = { reqReady := s.accepts, shutdownReq := s.halted } := by simp [State.pins, responsePins, h]

/-- With a response the response ports are its payload ports and its outcome tag. -/
theorem State.pins_of_response {s : State} {r : Response} (h : s.response = some r) :
    s.pins = { r.payloadPins with
      rspValid := true, rspOk := r.ok, reqReady := s.accepts, shutdownReq := s.halted } := by
  simp [State.pins, responsePins, h]

@[simp] theorem payloadPins_meaning (m : DataMeaning) :
    (Response.meaning (some m)).payloadPins = { rspBand := m.band.code } := rfl
@[simp] theorem payloadPins_frame (b : Buffer) : (Response.frame b).payloadPins = bufferPins b := rfl
@[simp] theorem payloadPins_canResult_valid (d : Byte) (v t : Word) :
    (Response.canResult (.valid d v t)).payloadPins = { rspDataId := d, rspValue := v, rspTimestamp := t } := rfl
@[simp] theorem payloadPins_sensorBytes (b : Buffer) : (Response.sensorBytes b).payloadPins = bufferPins b := rfl
@[simp] theorem payloadPins_sensorResult_ok (r : SensorRecord) :
    (Response.sensorResult (.ok r)).payloadPins = { rspWords := packWords r.words } := rfl
@[simp] theorem payloadPins_commandBytes (b : Buffer) : (Response.commandBytes b).payloadPins = bufferPins b := rfl
@[simp] theorem payloadPins_reply (b : Buffer) : (Response.dispatchResult (.reply b)).payloadPins = bufferPins b := rfl

/-- A response whose outcome tag is 0 has all its payload ports 0. -/
theorem payloadPins_of_not_ok {r : Response} (h : r.ok = false) : r.payloadPins = {} := by
  cases r with
  | meaning m => cases m <;> simp_all [Response.ok, Response.payloadPins]
  | canResult c => cases c <;> simp_all [Response.ok, Response.payloadPins]
  | sensorResult c => cases c <;> simp_all [Response.ok, Response.payloadPins]
  | dispatchResult c => cases c <;> simp_all [Response.ok, Response.payloadPins]
  | nothing => rfl
  | _ => simp [Response.ok] at h

end Machine
end Sys2Proof
end

