-- ==== Sys2Proof/Tests/Slice0.lean ====
section
/-! SUPPORT. The model's own tests. Expected values are the spec's: 95_test_vectors.md (S, V and P numbers) and the encoding
tables of 30_encoding.md. Then, for each statement of Obligations.lean that has hypotheses, a state and operands that meet
them, at the ends of the ranges it speaks of. -/

namespace Sys2Proof.Tests

open Sys2Proof Sys2Proof.Machine

/-- The response of a step, if it is a next state with one. -/
def responseOf : Host.Outcome State Fault Refusal → Option Response
  | .next t => t.response
  | .fault _ => none
  | .refused _ => none

/-- `halted` and the events after a step. -/
def haltedOf : Host.Outcome State Fault Refusal → Option (Bool × List Event)
  | .next t => some (t.halted, t.events)
  | .fault _ => none
  | .refused _ => none

/-- A halted block, as V48 leaves it. -/
def haltedState : State := { State.reset with halted := true, events := [.shutdownRequested] }

/-- A running block under the given drives. -/
def drivenBy (ds : List Drive) : State := { State.reset with inputs := ds }

/-- `SEQ52` of 95_test_vectors.md: byte `i` is `i`. -/
def seq52 : Buffer := (List.range 52).map (BitVec.ofNat 8)

/-- `SEQ52` as the operand of PAYLOAD. -/
def seq52Payload : Vector Byte 52 := Vector.ofFn fun i => BitVec.ofNat 8 i.val

/-- Three bytes as the operand of PAYLOAD_BADLEN. -/
def shortPayload : BadLenPayload := ⟨[0x01#8, 0x02#8, 0x03#8], by decide⟩

/-- `0x03`, the first unknown opcode. -/
def opcode03 : UnknownOpcode := ⟨0x03#8, by decide⟩

/-- The record `R1` of V32. -/
def recordR1 : SensorRecord where
  timestamp  := 0x01020304#32
  acc        := ⟨0x00000001#32, 0xFFFFFFFF#32, 0x7FFFFFFF#32⟩
  gyro       := ⟨0x80000000#32, 0x00000000#32, 0x00000100#32⟩
  baro       := 0x00018BCD#32
  ccPressure := 0x0A0B0C0D#32
  dynamixel  := ⟨0x0000000A#32, 0x00000014#32, 0x0000001E#32, 0x00000028#32⟩

/-- The record of V35. -/
def commandV35 : CommandRecord where
  timestamp := 0x00001000#32
  thrust    := 0x000001F4#32
  dynamixel := ⟨0x00000001#32, 0xFFFFFFFE#32, 0x7FFFFFFF#32, 0x80000000#32⟩

/-! ### WellFormed: an ill-formed term for each check, refused -/

theorem maxLen_lt_fits (n : Nat) (h : Config.maxLen < n) : lenFits n = false := by
  cases e : lenFits n with
  | false => rfl
  | true => rw [lenFits_iff] at e; omega

theorem test_wf_canDec_too_long : (Instr.canDec (List.replicate (Config.maxLen + 1) 0)).wf = false := by
  simp [Instr.wf, maxLen_lt_fits]
theorem test_wf_sensDec_too_long : (Instr.sensDec (List.replicate (Config.maxLen + 1) 0)).wf = false := by
  simp [Instr.wf, maxLen_lt_fits]
theorem test_wf_dispatch_too_long : (Instr.dispatch 0x00#8 (List.replicate (Config.maxLen + 1) 0)).wf = false := by
  simp [Instr.wf, maxLen_lt_fits]
theorem test_wf_ping_too_long : (Instr.ping (List.replicate (Config.maxLen + 1) 0)).wf = false := by
  simp [Instr.wf, maxLen_lt_fits]
theorem test_wf_shutdown_too_long : (Instr.shutdown (List.replicate (Config.maxLen + 1) 0)).wf = false := by
  simp [Instr.wf, maxLen_lt_fits]
theorem test_wf_payloadBadlen_too_long :
    (Instr.payloadBadlen ⟨List.replicate (Config.maxLen + 1) 0, by simp; have := maxLen_ge; omega⟩).wf = false := by
  simp [Instr.wf, maxLen_lt_fits]
theorem test_wf_nopUnknown_too_long : (Instr.nopUnknown opcode03 (List.replicate (Config.maxLen + 1) 0)).wf = false := by
  simp [Instr.wf, maxLen_lt_fits]
theorem test_wf_tvcBoot_timestamp : (Instr.tvcBoot 0x01000000#32).wf = false := by decide
theorem test_wf_tvcShutdown_timestamp : (Instr.tvcShutdown 0x01000000#32).wf = false := by decide
theorem test_wf_tvcAbort_timestamp : (Instr.tvcAbort 0x01000000#32).wf = false := by decide
/-- The decoder refuses a length that `req_len` cannot carry, and a pattern of no pseudo-operation (data-ID 0x65). -/
theorem test_decode_rejects_by_name :
    decode (.req { op := 0b010#3, len := Config.maxLen + 1 }) = .error .bufferTooLong ∧
    decode (.pseudo 0x0000000165000000#64) = .error .noPseudoOperation := by
  refine ⟨?_, by rfl⟩
  simp [decode, decodeReq, guardLen, maxLen_lt_fits]

/-! ### Decoding: words written out from R51, R52, R53, R60 -/

theorem test_decode_resolve : decode (.req { op := 0b000#3, dataId := 0x64#8 }) = .ok (.resolve 0x64#8) := by rfl
theorem test_decode_canEnc :
    decode (.req { op := 0b001#3, dataId := 0x64#8, value := 0x00000003#32, timestamp := 0x00000123#32 }) =
      .ok (.canEnc 0x64#8 0x00000003#32 0x00000123#32) := by rfl
theorem test_decode_canDec :
    decode (.req { op := 0b010#3, len := 2, buf := [0x01#8, 0x02#8, 0x09#8] }) = .ok (.canDec [0x01#8, 0x02#8]) := by rfl
/-- Word 0 of `req_words` is bits 31:0 and word 12 is bits 415:384 (R15). -/
theorem test_decode_sensEnc :
    decode (.req { op := 0b011#3, words := (0x0000000C#32 ++ 0#320 ++ 0x00000001#32 ++ 0x01020304#32 : BitVec 416) }) =
      .ok (.sensEnc ⟨0x01020304#32, ⟨1, 0, 0⟩, ⟨0, 0, 0⟩, 0, 0, ⟨0, 0, 0, 0x0000000C#32⟩⟩) := by rfl
theorem test_decode_sensDec : decode (.req { op := 0b100#3, len := 1, buf := [0xAA#8] }) = .ok (.sensDec [0xAA#8]) := by rfl
/-- Words 6 to 12 of `req_words` are ignored (R94). -/
theorem test_decode_cmdEnc :
    decode (.req { op := 0b101#3, words := (0xFFFFFFFF#32 ++ 0#192 ++ 0x00000005#32 ++ 0#128 ++ 0x00001000#32 : BitVec 416) }) =
      .ok (.cmdEnc ⟨0x00001000#32, 0, ⟨0, 0, 0, 0x00000005#32⟩⟩) := by rfl
theorem test_decode_dispatch :
    decode (.req { op := 0b110#3, opcode := 0x07#8, len := 2, buf := [0xDE#8, 0xAD#8] }) =
      .ok (.dispatch 0x07#8 [0xDE#8, 0xAD#8]) := by rfl
theorem test_decode_reserved7 : decode (.req { op := 0b111#3 }) = .ok .reserved7 := by rfl
theorem test_decode_ping : decode (.msg 0b00000000#8 [0xAA#8]) = .ok (.ping [0xAA#8]) := by rfl
theorem test_decode_shutdown : decode (.msg 0b00000001#8 []) = .ok (.shutdown []) := by rfl
theorem test_decode_payload : decode (.msg 0b00000010#8 (List.replicate 52 0xFF#8)) = .ok (.payload (Vector.replicate 52 0xFF#8)) := by rfl
theorem test_decode_payloadBadlen : decode (.msg 0b00000010#8 [0x01#8, 0x02#8, 0x03#8]) = .ok (.payloadBadlen shortPayload) := by rfl
/-- The first opcode of each of the seven rows of NOP_UNKNOWN, and the last of all. -/
theorem test_decode_nopUnknown :
    [0b00000011#8, 0b00000100#8, 0b00001000#8, 0b00010000#8, 0b00100000#8, 0b01000000#8, 0b10000000#8, 0b11111111#8].map
      (fun o => match decode (.msg o []) with
        | .ok (.nopUnknown u []) => u.byte == o
        | _ => false) = [true, true, true, true, true, true, true, true] := by decide
theorem test_decode_tvcBoot :
    decode (.pseudo 0b0000000000000000000000000000000101100100000000000000000000000000#64) = .ok (.tvcBoot 0) := by rfl
theorem test_decode_tvcShutdown :
    decode (.pseudo 0b0000000000000000000000000000001001100100111111111111111111111111#64) =
      .ok (.tvcShutdown 0x00FFFFFF#32) := by rfl
/-- P1 step 1: `N(b) = 0x0000000364000123`. -/
theorem test_decode_tvcAbort : decode (.pseudo 0x0000000364000123#64) = .ok (.tvcAbort 0x00000123#32) := by rfl

/-! ### The instructions -/

/-- V27: the hole at 39. -/
theorem test_resolve_v27 : [0x26#8, 0x27#8, 0x28#8, 0x31#8, 0x32#8].map (resolve registryTable) =
    [some ⟨.kalman, 0x26#8⟩, none, some ⟨.kalman, 0x28#8⟩, some ⟨.kalman, 0x31#8⟩, none] := by decide
/-- V29, V30. -/
theorem test_resolve_v29 : [0x63#8, 0x64#8, 0x6A#8, 0x6B#8, 0x80#8, 0xFF#8].map (resolve registryTable) =
    [none, some ⟨.tvc, 0x64#8⟩, some ⟨.tvc, 0x6A#8⟩, none, none, none] := by decide
/-- V11: the bytes of every field, and a truncated timestamp. -/
theorem test_canEnc_v11 : responseOf (exec (.canEnc 0x05#8 0x12345678#32 0xFFABCDEF#32) State.reset) =
    some (.frame [0x12#8, 0x34#8, 0x56#8, 0x78#8, 0x05#8, 0xAB#8, 0xCD#8, 0xEF#8]) := by decide
/-- V8: the smallest truncated timestamp. -/
theorem test_canEnc_v8 : responseOf (exec (.canEnc 0x7F#8 0x7FFFFFFF#32 0x01000000#32) State.reset) =
    some (.frame [0x7F#8, 0xFF#8, 0xFF#8, 0xFF#8, 0x7F#8, 0x00#8, 0x00#8, 0x00#8]) := by decide
/-- V20: the top bit of the 24-bit timestamp is no sign. -/
theorem test_canDec_v20 :
    responseOf (exec (.canDec [0x80#8, 0x00#8, 0x00#8, 0x00#8, 0x80#8, 0x80#8, 0x00#8, 0x00#8]) State.reset) =
      some (.canResult (.valid 0x80#8 0x80000000#32 0x00800000#32)) := by decide
/-- V22, V23, V16: no partial parse, no prefix parse, nothing in nothing. -/
theorem test_canDec_lengths :
    [[0x01#8, 0x02#8, 0x03#8, 0x04#8, 0x05#8, 0x06#8, 0x07#8],
     [0x01#8, 0x02#8, 0x03#8, 0x04#8, 0x05#8, 0x06#8, 0x07#8, 0x08#8, 0x09#8], []].map canDecode =
      [.invalid, .invalid, .invalid] := by decide
/-- V32, little-endian. -/
theorem test_sensEnc_v32_le : encodeSensor .le recordR1 =
    [0x04#8, 0x03#8, 0x02#8, 0x01#8, 0x01#8, 0x00#8, 0x00#8, 0x00#8, 0xFF#8, 0xFF#8, 0xFF#8, 0xFF#8,
     0xFF#8, 0xFF#8, 0xFF#8, 0x7F#8, 0x00#8, 0x00#8, 0x00#8, 0x80#8, 0x00#8, 0x00#8, 0x00#8, 0x00#8,
     0x00#8, 0x01#8, 0x00#8, 0x00#8, 0xCD#8, 0x8B#8, 0x01#8, 0x00#8, 0x0D#8, 0x0C#8, 0x0B#8, 0x0A#8,
     0x0A#8, 0x00#8, 0x00#8, 0x00#8, 0x14#8, 0x00#8, 0x00#8, 0x00#8, 0x1E#8, 0x00#8, 0x00#8, 0x00#8,
     0x28#8, 0x00#8, 0x00#8, 0x00#8] := by decide
/-- V32, big-endian: the first, the eighth and the last word. -/
theorem test_sensEnc_v32_be : (memRead (encodeSensor .be recordR1) 0 4, memRead (encodeSensor .be recordR1) 28 4,
      memRead (encodeSensor .be recordR1) 48 4) =
    ([0x01#8, 0x02#8, 0x03#8, 0x04#8], [0x00#8, 0x01#8, 0x8B#8, 0xCD#8], [0x00#8, 0x00#8, 0x00#8, 0x28#8]) := by decide
/-- V31, little-endian. -/
theorem test_sensDec_v31_le : decodeSensor .le seq52 = .ok
    ⟨0x03020100#32, ⟨0x07060504#32, 0x0B0A0908#32, 0x0F0E0D0C#32⟩, ⟨0x13121110#32, 0x17161514#32, 0x1B1A1918#32⟩,
     0x1F1E1D1C#32, 0x23222120#32, ⟨0x27262524#32, 0x2B2A2928#32, 0x2F2E2D2C#32, 0x33323130#32⟩⟩ := by decide
/-- V31, big-endian, and V33: the lengths next to 52. -/
theorem test_sensDec_v31_be_v33 : decodeSensor .be seq52 = .ok
    ⟨0x00010203#32, ⟨0x04050607#32, 0x08090A0B#32, 0x0C0D0E0F#32⟩, ⟨0x10111213#32, 0x14151617#32, 0x18191A1B#32⟩,
     0x1C1D1E1F#32, 0x20212223#32, ⟨0x24252627#32, 0x28292A2B#32, 0x2C2D2E2F#32, 0x30313233#32⟩⟩ ∧
    decodeSensor .be (seq52.take 51) = .err .lengthMismatch ∧
    decodeSensor .be (seq52 ++ [0x34#8]) = .err .lengthMismatch := by decide
/-- V35, little-endian. -/
theorem test_cmdEnc_v35_le : encodeCommand .le commandV35 =
    [0x00#8, 0x10#8, 0x00#8, 0x00#8, 0xF4#8, 0x01#8, 0x00#8, 0x00#8, 0x01#8, 0x00#8, 0x00#8, 0x00#8,
     0xFE#8, 0xFF#8, 0xFF#8, 0xFF#8, 0xFF#8, 0xFF#8, 0xFF#8, 0x7F#8, 0x00#8, 0x00#8, 0x00#8, 0x80#8] := by decide
/-- V35, big-endian. -/
theorem test_cmdEnc_v35_be : encodeCommand .be commandV35 =
    [0x00#8, 0x00#8, 0x10#8, 0x00#8, 0x00#8, 0x00#8, 0x01#8, 0xF4#8, 0x00#8, 0x00#8, 0x00#8, 0x01#8,
     0xFF#8, 0xFF#8, 0xFF#8, 0xFE#8, 0x7F#8, 0xFF#8, 0xFF#8, 0xFF#8, 0x80#8, 0x00#8, 0x00#8, 0x00#8] := by decide
/-- V42, V44: a Payload message of 53 bytes, and of 24. -/
theorem test_dispatch_v42_v44 :
    responseOf (exec (.dispatch 0x02#8 (seq52 ++ [0x34#8])) State.reset) = some (.dispatchResult (.reply [0xC5#8, 0xE5#8])) ∧
    responseOf (exec (.dispatch 0x02#8 (List.replicate 24 0x00#8)) State.reset) =
      some (.dispatchResult (.reply [0xC5#8, 0xE5#8])) := by decide
/-- V50: bits of a known opcode do not make one. -/
theorem test_dispatch_v50 : responseOf (exec (.dispatch 0x12#8 [0x02#8]) State.reset) = some (.dispatchResult .noReply) := by
  decide
/-- V52. -/
theorem test_reserved7_v52 : responseOf (exec .reserved7 State.reset) = some .nothing ∧
    haltedOf (exec .reserved7 State.reset) = some (false, []) := by decide
/-- V38. -/
theorem test_ping_v38 : responseOf (exec (.ping seq52) State.reset) = some (.dispatchResult (.reply [0xCE#8, 0xEC#8])) := by
  decide
/-- V51: a halted block answers no Ping. -/
theorem test_ping_v51 : responseOf (exec (.ping []) haltedState) = none := by decide
/-- V49: Shutdown ignores its payload, halts and emits. -/
theorem test_shutdown_v49 : responseOf (exec (.shutdown seq52) State.reset) = some (.dispatchResult .noReply) ∧
    haltedOf (exec (.shutdown seq52) State.reset) = some (true, [.shutdownRequested]) := by decide
/-- V39, for either byte order. -/
theorem test_payload_v39 : [SerialOrder.le, .be].map (fun o => encodeCommand o (cmdDerive (sensorOfBytes o seq52))) =
    [List.replicate 24 0x00#8, List.replicate 24 0x00#8] := by decide
/-- `DISPATCH 0x02, [0x01, 0x02, 0x03]` of R113. -/
theorem test_payloadBadlen_r113 : responseOf (exec (.payloadBadlen shortPayload) State.reset) =
    some (.dispatchResult (.reply [0xC5#8, 0xE5#8])) := by decide
/-- V45: the first unknown opcode. -/
theorem test_nopUnknown_v45 : responseOf (exec (.nopUnknown opcode03 seq52) State.reset) = some (.dispatchResult .noReply) ∧
    haltedOf (exec (.nopUnknown opcode03 seq52) State.reset) = some (false, []) := by decide
/-- V2 (S9). -/
theorem test_tvcBoot_v2 : responseOf (exec (.tvcBoot 0) State.reset) =
    some (.frame [0x00#8, 0x00#8, 0x00#8, 0x01#8, 0x64#8, 0x00#8, 0x00#8, 0x00#8]) := by decide
/-- V3, P5 step 6: a frame, not a shutdown. -/
theorem test_tvcShutdown_v3 : responseOf (exec (.tvcShutdown 0) State.reset) =
    some (.frame [0x00#8, 0x00#8, 0x00#8, 0x02#8, 0x64#8, 0x00#8, 0x00#8, 0x00#8]) ∧
    haltedOf (exec (.tvcShutdown 0) State.reset) = some (false, []) := by decide
/-- P1 step 1. -/
theorem test_tvcAbort_p1 : responseOf (exec (.tvcAbort 0x00000123#32) State.reset) =
    some (.frame [0x00#8, 0x00#8, 0x00#8, 0x03#8, 0x64#8, 0x00#8, 0x01#8, 0x23#8]) := by decide

/-! ### The step and the ports -/

/-- P5 step 4: reset restarts a halted block, whatever is presented with it. -/
theorem test_step_reset : haltedOf (step { haltedState with inputs := [⟨true, some (.msg 0x01#8 [])⟩] }) =
    some (false, [.shutdownRequested]) := by decide
/-- A table word placed for fetching is decoded and run by the next step. -/
theorem test_step_fetchWord : responseOf (step (State.reset.withFetchWord 8 0x07)) = some .nothing ∧
    decodeTableWord 8 0x07 = some .reserved7 ∧ decodeTableWord 8 0x80 = some (.nopUnknown ⟨0x80#8, by decide⟩ []) ∧
    decodeTableWord 64 0x0000000164000000 = some (.tvcBoot 0) := by
  refine ⟨by decide, by rfl, by rfl, by rfl⟩
/-- V26: `rsp_ok, rsp_band` of 0x10 is 1, 3. -/
theorem test_pins_v26 : responsePins (some (.meaning (resolve registryTable 0x10#8))) =
    { rspValid := true, rspOk := true, rspBand := 3 } := by decide
/-- R15: byte 0 of `rsp_buf` is bits 7:0. -/
theorem test_pins_reply : responsePins (some (.dispatchResult (.reply [0xCE#8, 0xEC#8]))) =
    { rspValid := true, rspOk := true, rspLen := 2, rspBuf := 0xECCE#416 } := by decide
/-- R20: reset drops a request in flight; with `LAT = 1` the request would have been answered in this cycle. -/
theorem test_clocked_reset : ((⟨State.reset, some ⟨.ping [], 0⟩⟩ : Clocked).tick 1 ⟨true, false, { op := 0 }⟩).block.response = none ∧
    ((⟨State.reset, some ⟨.ping [], 0⟩⟩ : Clocked).tick 1 ⟨false, false, { op := 0 }⟩).block.response =
      some (.dispatchResult (.reply [0xCE#8, 0xEC#8])) := by decide

/-- R15, R155: after acceptance the ports are free; with `LAT = 2` a Ping is answered two cycles on, though a Shutdown stands
on the ports in between. -/
theorem test_clocked_ports_after_acceptance :
    let ping : InPins := ⟨false, true, { op := 6 }⟩
    let shutdown : InPins := ⟨false, true, { op := 6, opcode := 0x01#8 }⟩
    let after := ((⟨State.reset, none⟩ : Clocked).cycles 2 [ping, shutdown, ⟨false, false, { op := 0 }⟩]).block
    after.response = some (.dispatchResult (.reply [0xCE#8, 0xEC#8])) ∧ after.halted = false := by decide

/-! ### Witnesses: the hypotheses of each statement are met -/

theorem test_running : Running State.reset := by decide
theorem test_lookup (id : Byte) : State.reset.registry[id.toNat]? = some (registryLookup registryTable id) := by
  simp [registryLookup, id.isLt]

theorem test_witness_ResolveAnswersFromTheRegistry : Running State.reset ∧ ({ op := 0 } : ReqPorts).op = 0 ∧
    State.reset.registry[(0x6A#8).toNat]? = some (some .tvc) ∧ State.reset.registry[(0x6B#8).toNat]? = some none ∧
    0x80 ≤ (0x80#8).toNat ∧ 0x80 ≤ (0xFF#8).toNat := by
  refine ⟨test_running, rfl, ?_, ?_, by decide, by decide⟩
  · rw [test_lookup]; decide
  · rw [test_lookup]; decide
theorem test_witness_UnknownIdsResolveToNone : Running State.reset ∧ State.reset.registry = registryTable ∧
    (0x27#8).toNat ∈ [0x0E, 0x0F, 0x27] ∧ (0x14 ≤ (0x14#8).toNat ∧ (0x25#8).toNat ≤ 0x25) ∧
    (0x32 ≤ (0x32#8).toNat ∧ (0x4F#8).toNat ≤ 0x4F) ∧ (0x51 ≤ (0x51#8).toNat ∧ (0x54#8).toNat ≤ 0x54) ∧
    (0x60 ≤ (0x60#8).toNat ∧ (0x63#8).toNat ≤ 0x63) ∧ 0x6B ≤ (0x6B#8).toNat ∧
    responseOf (exec (.resolve 0x64#8) State.reset) = some (.meaning (some ⟨.tvc, 0x64#8⟩)) :=
  ⟨test_running, rfl, by decide, by decide, by decide, by decide, by decide, by decide, by decide⟩
theorem test_witness_CanEncPacksTheFrame : Running State.reset ∧ ({ op := 1 } : ReqPorts).op = 1 := ⟨test_running, rfl⟩
theorem test_witness_CanEncTruncatesTheTimestamp :
    (0x00ABCDEF#32).extractLsb' 0 24 = (0xFFABCDEF#32).extractLsb' 0 24 := by decide
theorem test_witness_CanDecReadsOrRejects : Running State.reset ∧
    responseOf (exec (.canDec (List.replicate 8 0xFF#8)) State.reset) =
      some (.canResult (.valid 0xFF#8 0xFFFFFFFF#32 0x00FFFFFF#32)) ∧
    (List.replicate 7 0x00#8).length ≠ 8 ∧ (List.replicate 9 0x00#8).length ≠ 8 ∧
    ({ op := 2, len := 63, buf := List.replicate 63 0 } : ReqPorts).op = 2 ∧ 63 ≤ Config.maxLen ∧
    63 ≤ (List.replicate 63 (0 : Byte)).length ∧ 0 ≤ ([] : Buffer).length :=
  ⟨test_running, by decide, by decide, by decide, rfl, maxLen_ge, by decide, by decide⟩
theorem test_witness_CanEncodeThenDecode : Running State.reset ∧ (0x00FFFFFF#32).toNat < 2 ^ 24 := ⟨test_running, by decide⟩
theorem test_witness_CanDecodeThenEncode : Running State.reset ∧ (List.replicate 8 0xFF#8).length = 8 :=
  ⟨test_running, by decide⟩
theorem test_witness_TvcPseudoOperationsAreCanEnc : Running State.reset := test_running
theorem test_witness_SensEncWritesThirteenWords : Running State.reset ∧ ({ op := 3 } : ReqPorts).op = 3 ∧ 12 < 13 :=
  ⟨test_running, rfl, by decide⟩
theorem test_witness_SensDecReadsOrRejects : Running State.reset ∧ seq52.length = 52 ∧ (seq52.take 51).length ≠ 52 ∧
    (seq52 ++ [0x34#8]).length ≠ 52 ∧ ({ op := 4, len := 52, buf := seq52 } : ReqPorts).op = 4 ∧ 52 ≤ Config.maxLen ∧
    52 ≤ seq52.length :=
  ⟨test_running, by decide, by decide, by decide, rfl, by have := maxLen_ge; omega, by decide⟩
theorem test_witness_CmdEncWritesSixWords : Running State.reset ∧ ({ op := 5 } : ReqPorts).op = 5 ∧ 5 < 6 :=
  ⟨test_running, rfl, by decide⟩
theorem test_witness_SensorDecodeThenEncode : Running State.reset ∧ seq52.length = 52 := ⟨test_running, by decide⟩
theorem test_witness_SensorEncodeThenDecode : Running State.reset := test_running
/-- The first and the last word of a buffer; `SEQ52` has a word that is no palindrome, 52 bytes `0xFF` have none. -/
theorem test_witness_SerialOrderMattersExactlyOffPalindromes : seq52.length = 52 ∧ (List.replicate 52 0xFF#8).length = 52 ∧
    (memRead seq52 (4 * 0) 4).reverse ≠ memRead seq52 (4 * 0) 4 ∧ (memRead seq52 (4 * 12) 4).reverse ≠ memRead seq52 (4 * 12) 4 ∧
    (∀ k, k < 13 → (memRead (List.replicate 52 0xFF#8) (4 * k) 4).reverse = memRead (List.replicate 52 0xFF#8) (4 * k) 4) := by
  refine ⟨by decide, by decide, by decide, by decide, ?_⟩
  intro k hk
  interval_cases k <;> rfl
/-- A value of each opcode clause, the lengths next to 52, and each end of the buffer. -/
theorem test_witness_DispatchRoutesByOpcodeThenLength : Running State.reset ∧
    [0x00#8, 0x01#8, 0x02#8, 0x03#8, 0xFF#8].map SlaveOpcode.ofByte = [some .ping, some .shutdown, some .payload, none, none] ∧
    3 ≤ (0x03#8).toNat ∧ opcode03.byte = 0x03#8 ∧ seq52Payload.toList = seq52 ∧ (seq52.take 51).length ≠ 52 ∧
    (seq52 ++ [0x34#8]).length ≠ 52 ∧
    responseOf (exec (.dispatch 0x02#8 (seq52.take 51)) State.reset) = some (.dispatchResult (.reply [0xC5#8, 0xE5#8])) ∧
    responseOf (exec (.dispatch 0x01#8 []) State.reset) = some (.dispatchResult .noReply) ∧
    ({ op := 6, len := 2, buf := [0xDE#8, 0xAD#8] } : ReqPorts).op = 6 ∧ 0 ≤ ([] : Buffer).length ∧
    2 ≤ [0xDE#8, 0xAD#8].length := by decide
theorem test_witness_PingIsAcknowledged : Running State.reset ∧ seq52.length ≤ Config.maxLen := by
  refine ⟨test_running, ?_⟩
  have := maxLen_ge
  simp [seq52]; omega
theorem test_witness_ShutdownHaltsWithoutReply : Running State.reset ∧ ([] : Buffer).length ≤ Config.maxLen ∧
    haltedOf (exec (.shutdown []) State.reset) = some (true, [.shutdownRequested]) :=
  ⟨test_running, Nat.zero_le _, by decide⟩
theorem test_witness_PayloadIsAnsweredWithTheZeroCommand : Running State.reset ∧ seq52.length = 52 := ⟨test_running, by decide⟩
theorem test_witness_BadLengthPayloadGetsTheSentinel : Running State.reset ∧ (seq52.take 51).length ≠ 52 ∧
    (seq52 ++ [0x34#8]).length ≠ 52 ∧ shortPayload.bytes.length ≤ Config.maxLen := by
  refine ⟨test_running, by decide, by decide, ?_⟩
  have := maxLen_ge
  simp [shortPayload]; omega
theorem test_witness_UnknownOpcodesAreIgnored : Running State.reset ∧ 3 ≤ (0x03#8).toNat ∧ 3 ≤ (0xFF#8).toNat ∧
    ([] : Buffer).length ≤ Config.maxLen := ⟨test_running, by decide, by decide, Nat.zero_le _⟩
theorem test_witness_ReservedSelectorGetsNothing : Running State.reset ∧ ({ op := 7 } : ReqPorts).op = 7 := ⟨test_running, rfl⟩
theorem test_witness_NothingIsAcceptedWhenNotRunning : haltedState.halted = true ∧
    ({ State.reset with rst := true } : State).rst = true := by decide
theorem test_witness_EveryInstructionIsAnswered : Running State.reset ∧ State.reset.registry = registryTable := ⟨test_running, rfl⟩
theorem test_witness_OnlyShutdownWritesState : Running State.reset ∧
    (∃ t, exec (.ping []) State.reset = .next t) ∧ haltsBlock (.ping []) = false ∧
    (∃ t, exec (.dispatch 0x01#8 []) State.reset = .next t) ∧ haltsBlock (.dispatch 0x01#8 []) = true :=
  ⟨test_running, ⟨_, rfl⟩, rfl, ⟨_, rfl⟩, rfl⟩
theorem test_witness_NoCrossMessageState : Running State.reset ∧ Running { State.reset with response := some .nothing } ∧
    (∃ t, exec (.ping []) State.reset = .next t) ∧
    (∃ t, exec (.ping []) { State.reset with response := some .nothing } = .next t) :=
  ⟨test_running, by decide, ⟨_, rfl⟩, ⟨_, rfl⟩⟩
theorem test_witness_NonHaltingInstructionsAreIdempotent : haltsBlock (.resolve 0x64#8) = false ∧
    ∃ t, exec (.resolve 0x64#8) State.reset = .next t := ⟨rfl, _, rfl⟩
theorem test_witness_OnlyBytesInsideARightLengthAreRead :
    ([0x00#8] : Buffer).length = [0x01#8].length ∧ ([0x00#8] : Buffer).length ≠ 8 ∧ ([0x00#8] : Buffer).length ≠ 52 ∧
    (∀ i, i < 1 → ([0x07#8] : Buffer).getD i 0 = ([0x07#8, 0x08#8] : Buffer).getD i 0) := by decide
theorem test_witness_StepRunsThePresentedInstruction :
    (drivenBy [⟨false, some (.msg 0x00#8 [])⟩]).inputs = ⟨false, some (.msg 0x00#8 [])⟩ :: [] ∧
    decode (.msg 0x00#8 []) = .ok (.ping []) ∧
    (drivenBy [⟨false, none⟩]).inputs = ⟨false, none⟩ :: [] ∧ State.reset.inputs = [] ∧
    decode (.pseudo 0) = .error .noPseudoOperation := ⟨rfl, rfl, rfl, rfl, rfl⟩
theorem test_witness_ResetWinsAndClearsHalted :
    (drivenBy [⟨true, some (.msg 0x01#8 [])⟩]).inputs = ⟨true, some (.msg 0x01#8 [])⟩ :: [] := rfl
theorem test_witness_StepKeepsTheInvariant : haltedState.Inv ∧ ∃ t, step haltedState = .next t :=
  ⟨⟨rfl, by decide, by decide, by decide⟩, _, rfl⟩
theorem test_witness_ShutdownRequestFollowsHalted :
    haltedOf (step (drivenBy [⟨false, some (.msg 0x01#8 [])⟩])) = some (true, [.shutdownRequested]) ∧
    haltedOf (step haltedState) = some (true, [.shutdownRequested]) ∧ haltedState.halted = true := by decide
theorem test_witness_HaltedUntilReset : RunEnded { haltedState with inputs := [⟨false, some (.msg 0x00#8 [])⟩, ⟨true, none⟩] } ∧
    ∀ d ∈ ([⟨false, some (.msg 0x00#8 [])⟩, ⟨true, none⟩] : List Drive).take 1, d.rst = false := by decide
theorem test_witness_DecodeOfEncodeIsTheInstruction : (Instr.sensEnc recordR1).wf = true ∧ (Instr.payload seq52Payload).wf = true ∧
    (Instr.tvcAbort 0x00FFFFFF#32).wf = true ∧ (Instr.canDec (List.replicate 63 0)).wf = true ∧
    (Instr.nopUnknown opcode03 []).wf = true := by decide
theorem test_witness_DecodedInstructionsAreWellFormed : decode (.pseudo 0x0000000164FFFFFF#64) = .ok (.tvcBoot 0x00FFFFFF#32) ∧
    ({ op := 2, len := Config.maxLen } : ReqPorts).len ≤ Config.maxLen := ⟨rfl, Nat.le_refl _⟩
theorem test_witness_EncodeOfDecodeIsTheMessage : decode (.msg 0xFF#8 []) = .ok (.nopUnknown ⟨0xFF#8, by decide⟩ []) ∧
    decode (.pseudo 0x0000000364FFFFFF#64) = .ok (.tvcAbort 0x00FFFFFF#32) := ⟨rfl, rfl⟩
theorem test_witness_UnknownOpcodeRowsPartition : ([] : Buffer).length ≤ Config.maxLen ∧
    (List.replicate 63 0x00#8).length ≤ Config.maxLen ∧
    [0x02#8, 0x03#8, 0xFF#8].map (fun w => unknownOpcodeRows.any (rowMatches · w)) = [false, true, true] :=
  ⟨Nat.zero_le _, by simpa using maxLen_ge, by decide⟩
/-- A length beyond the listed bytes, and the greatest length. -/
theorem test_witness_PortsCarryBytesAndWordsInPlace : 51 < 52 ∧ 12 < 13 ∧
    ({ op := 2, len := 63, buf := [0x01#8] } : ReqPorts).len ≤ Config.maxLen ∧
    ({ op := 4, len := Config.maxLen } : ReqPorts).len ≤ Config.maxLen ∧ ({ op := 6 } : ReqPorts).op = 6 :=
  ⟨by decide, by decide, maxLen_ge, Nat.le_refl _, rfl⟩
/-- A response of each kind, none, and the first byte beyond a reply in a state that meets the invariant. -/
theorem test_witness_UnusedResponsePortsAreZero : State.reset.pins.rspOk = false ∧
    (State.reset.answer (.meaning none)).response = some (.meaning none) ∧
    (∀ m, Response.frame [] ≠ .meaning (some m)) ∧ (∀ d v t, Response.frame [] ≠ .canResult (.valid d v t)) ∧
    (∀ rec, Response.frame [] ≠ .sensorResult (.ok rec)) ∧
    (∀ b, Response.nothing ≠ .frame b ∧ Response.nothing ≠ .sensorBytes b ∧ Response.nothing ≠ .commandBytes b ∧
      Response.nothing ≠ .dispatchResult (.reply b)) ∧
    (actPing State.reset).Inv ∧ (actPing State.reset).pins.rspLen.toNat ≤ 2 := by
  refine ⟨by decide, rfl, by simp, by simp, by simp, by simp, ⟨rfl, ?_, by decide, by decide⟩, by decide⟩
  intro r h
  simp only [actPing, State.answer, Option.some.injEq] at h
  subst h; decide
/-- With `LAT = 1` and with `LAT = 0`; `req_valid` falls and the ports change after acceptance. -/
theorem test_witness_ClockedRequestIsAnsweredAfterLat : (⟨State.reset, none⟩ : Clocked).block.halted = false ∧
    (⟨State.reset, none⟩ : Clocked).flight = none ∧ decode (.req { op := 7 }) = .ok .reserved7 ∧
    (∀ j ∈ [(⟨false, false, { op := 0 }⟩ : InPins)], j.rst = false) ∧ [(⟨false, false, { op := 0 }⟩ : InPins)].length = 1 ∧
    ([] : List InPins).length = 0 ∧ 0 < 1 :=
  ⟨rfl, rfl, rfl, by decide, rfl, rfl, by decide⟩
theorem test_witness_HaltedClockedBlockIsSilent : (⟨haltedState, none⟩ : Clocked).block.halted = true ∧
    (⟨haltedState, none⟩ : Clocked).flight = none ∧ (⟨false, true, { op := 6 }⟩ : InPins).rst = false ∧
    [(⟨false, true, { op := 6 }⟩ : InPins)] ≠ [] ∧
    ((⟨State.reset, none⟩ : Clocked).tick 0 ⟨false, true, { op := 6, opcode := 0x01#8 }⟩).block.halted = true := by decide
theorem test_witness_ClockedResetDropsTheRequest : (⟨true, true, { op := 0 }⟩ : InPins).rst = true := rfl

end Sys2Proof.Tests
end

/-! ## The scope of the block (00_scope.md R9)

What every instruction answers, on what its response depends, and how a step reaches it. -/

namespace Sys2Proof.Machine

/-! ### The response of an accepted instruction -/

@[simp] theorem actPing_response (s : State) :
    (actPing s).response = some (.dispatchResult (.reply ackBytes)) := rfl

@[simp] theorem actShutdown_response (s : State) :
    (actShutdown s).response = some (.dispatchResult .noReply) := rfl

@[simp] theorem actPayload_response (p : Vector Byte 52) (s : State) :
    (actPayload p s).response = some (.dispatchResult (.reply (List.replicate 24 0x00#8))) := by
  simp [actPayload_eq]

@[simp] theorem actPayloadBadlen_response (s : State) :
    (actPayloadBadlen s).response = some (.dispatchResult (.reply errBytes)) := rfl

@[simp] theorem actNopUnknown_response (s : State) :
    (actNopUnknown s).response = some (.dispatchResult .noReply) := rfl

/-- Of the state, an action's response reads the registry alone (R116). -/
theorem action_response_congr (i : Instr) {s s' : State} (hreg : s.registry = s'.registry) :
    (action i s).response = (action i s').response := by
  cases i with
  | resolve id => simp [action, hreg]
  | dispatch o p =>
    simp only [action, actDispatch]
    cases SlaveOpcode.ofByte o with
    | none => simp
    | some op =>
      cases op with
      | payload => by_cases h : p.length = 52 <;> simp [h]
      | _ => simp
  | _ => simp [action]

/-- A running block is halted afterwards exactly by the Shutdown action. -/
theorem action_halted_of_running (i : Instr) {s : State} (h : s.halted = false) :
    (action i s).halted = haltsBlock i := by
  obtain ⟨-, -, -, -, ⟨hb, hh, -⟩ | ⟨hb, hh, -⟩⟩ := action_spec i s
  · rw [hb, hh]
  · rw [hb, hh, h]

/-! ### Legal responses (R115, R129) -/

theorem legal_resolve (id : Byte) : (Response.meaning (resolve registryTable id)).legal = true := by
  rw [resolve_eq_map]
  cases h : registryLookup registryTable id <;> simp [Response.legal, h]

theorem legal_frame_canEncode (d : Byte) (v t : Word) : (Response.frame (canEncode d v t)).legal = true := by
  simp [Response.legal]

/-- The timestamp of a decoded frame is 24 bits zero-extended (R80). -/
theorem legal_canDecode (b : Buffer) : (Response.canResult (canDecode b)).legal = true := by
  unfold canDecode
  split
  · have hts : (be24 b 5).toNat < 2 ^ 24 := (be24 b 5).isLt
    have hext : ((be24 b 5).setWidth 32).toNat = (be24 b 5).toNat := BitVec.toNat_setWidth_of_le (by decide)
    simpa [Response.legal, hext] using hts
  · rfl

theorem legal_ackReply : (Response.dispatchResult (.reply ackBytes)).legal = true := by decide

theorem legal_errReply : (Response.dispatchResult (.reply errBytes)).legal = true := by decide

theorem legal_zeroCommandReply :
    (Response.dispatchResult (.reply (List.replicate 24 0x00#8))).legal = true := by decide

/-- Whichever behaviour DISPATCH selects, its reply is one of the closed set. -/
theorem actDispatch_response_legal (o : Byte) (p : Buffer) (s : State) :
    ∃ r, (actDispatch o p s).response = some r ∧ r.legal = true := by
  obtain ⟨-, e⟩ | ⟨-, e⟩ | ⟨-, hlen, e⟩ | ⟨-, -, e⟩ | ⟨-, e⟩ := actDispatch_cases o p s <;> rw [e]
  · exact ⟨_, actPing_response s, legal_ackReply⟩
  · exact ⟨_, actShutdown_response s, rfl⟩
  · exact ⟨_, actPayload_response _ s, legal_zeroCommandReply⟩
  · exact ⟨_, actPayloadBadlen_response s, legal_errReply⟩
  · exact ⟨_, actNopUnknown_response s, rfl⟩

/-- With this version's registry every action gives a legal response. -/
theorem action_response_legal (i : Instr) {s : State} (hreg : s.registry = registryTable) :
    ∃ r, (action i s).response = some r ∧ r.legal = true := by
  cases i with
  | resolve id => exact ⟨_, rfl, by rw [hreg]; exact legal_resolve id⟩
  | canEnc d v t => exact ⟨_, rfl, legal_frame_canEncode d v t⟩
  | canDec b => exact ⟨_, rfl, legal_canDecode b⟩
  | sensEnc r => exact ⟨_, rfl, by simp [Response.legal]⟩
  | sensDec b => exact ⟨_, rfl, rfl⟩
  | cmdEnc c => exact ⟨_, rfl, by simp [Response.legal]⟩
  | dispatch o p => exact actDispatch_response_legal o p s
  | reserved7 => exact ⟨_, rfl, rfl⟩
  | ping p => exact ⟨_, actPing_response s, legal_ackReply⟩
  | shutdown p => exact ⟨_, actShutdown_response s, rfl⟩
  | payload p => exact ⟨_, actPayload_response p s, legal_zeroCommandReply⟩
  | payloadBadlen p => exact ⟨_, actPayloadBadlen_response s, legal_errReply⟩
  | nopUnknown o p => exact ⟨_, actNopUnknown_response s, rfl⟩
  | tvcBoot ts => exact ⟨_, rfl, legal_frame_canEncode _ _ ts⟩
  | tvcShutdown ts => exact ⟨_, rfl, legal_frame_canEncode _ _ ts⟩
  | tvcAbort ts => exact ⟨_, rfl, legal_frame_canEncode _ _ ts⟩

/-! ### The drive of the next step (R33) -/

theorem State.nextDrive_of_inputs {s : State} {d : Drive} {rest : List Drive} (h : s.inputs = d :: rest) :
    s.nextDrive = d := by
  simp [State.nextDrive, h]

/-- The environment that drives nothing more is idle, out of reset. -/
theorem State.nextDrive_of_inputs_nil {s : State} (h : s.inputs = []) : s.nextDrive = ⟨false, none⟩ := by
  simp [State.nextDrive, h]

theorem State.driven_of_inputs {s : State} {d : Drive} {rest : List Drive} (h : s.inputs = d :: rest) :
    s.driven = { s with inputs := rest, rst := d.rst } := by
  simp [State.driven, State.nextDrive_of_inputs h, h]

theorem State.driven_of_inputs_nil {s : State} (h : s.inputs = []) : s.driven = { s with rst := false } := by
  simp [State.driven, State.nextDrive_of_inputs_nil h, h]

/-! ### One step, by what is presented -/

theorem step_of_no_request {s : State} (h : s.nextDrive = ⟨false, none⟩) : step s = .next s.driven.noResponse := by
  simp [step, h]

theorem step_of_decode_ok {s : State} {p : Presented} {i : Instr} (h : s.nextDrive = ⟨false, some p⟩)
    (hd : decode p = .ok i) : step s = exec i s.driven := by
  simp [step, h, hd]

theorem step_of_decode_error {s : State} {p : Presented} {e : DecodeError} (h : s.nextDrive = ⟨false, some p⟩)
    (hd : decode p = .error e) : step s = refuseUndecodable e s.driven := by
  simp [step, h, hd]

/-- Out of reset, `halted` decides whether what is no instruction is ignored or refused (R132; log entry 12). -/
theorem refuseUndecodable_of_not_rst (e : DecodeError) {s : State} (hrst : s.rst = false) :
    refuseUndecodable e s = if s.halted then .next s.noResponse else .refused (.undecodable e) := by
  cases hh : s.halted <;> simp [refuseUndecodable, State.accepts, hrst, hh]

/-! ### The obligations -/

/-- Settles O24: `accept` always ends in a next state, and a running block takes the instruction's action, whose response is
legal by cases over the instructions. -/
theorem everyInstructionIsAnswered : Obligations.EveryInstructionIsAnswered := by
  refine ⟨fun i s => ?_, fun i s hrun => ?_⟩
  · rw [exec_eq_accept]
    exact accept_next s (action i)
  · obtain ⟨-, -, -, ⟨r, hr⟩, -⟩ := action_spec i s
    refine ⟨_, r, exec_of_running i hrun, hr, fun hreg => ?_⟩
    obtain ⟨r', hr', hlegal⟩ := action_response_legal i hreg
    obtain rfl : r = r' := Option.some.inj (hr.symm.trans hr')
    exact hlegal

/-- Settles O26: both blocks take the same action, whose response reads the registry alone, and which halts a running block
exactly when the instruction is the Shutdown action. -/
theorem noCrossMessageState : Obligations.NoCrossMessageState := by
  intro i s s' t t' hs hs' hreg ht ht'
  rw [exec_of_running i hs] at ht
  rw [exec_of_running i hs'] at ht'
  cases ht
  cases ht'
  refine ⟨action_response_congr i hreg, ?_⟩
  rw [action_halted_of_running i hs.1, action_halted_of_running i hs'.1]

/-- Settles O29: the step equation of each kind of presentation, in the state with that drive on the ports. -/
theorem stepRunsThePresentedInstruction : Obligations.StepRunsThePresentedInstruction := by
  refine ⟨fun s rest p i h hd => ?_, fun s rest h => ?_, fun s h => ?_, fun s rest p e h hd => ?_⟩
  · rw [step_of_decode_ok (State.nextDrive_of_inputs h) hd, State.driven_of_inputs h]
  · rw [step_of_no_request (State.nextDrive_of_inputs h), State.driven_of_inputs h]
    rfl
  · rw [step_of_no_request (State.nextDrive_of_inputs_nil h), State.driven_of_inputs_nil h]
    rfl
  · rw [step_of_decode_error (State.nextDrive_of_inputs h) hd, State.driven_of_inputs h,
      refuseUndecodable_of_not_rst e rfl]
    rfl

end Sys2Proof.Machine

/-! ## The block's state, reset and runs (10_state.md)

What every step keeps, what a halted block does, the ports, and the block clock cycle by clock cycle. -/

namespace Sys2Proof.Machine

/-! ### The invariant: each operation a step is made of keeps it -/

/-- A drive out of reset on the ports changes nothing the invariant speaks of but the level of `rst`. -/
theorem State.Inv.driven {s : State} (hs : s.Inv) (hrst : s.nextDrive.rst = false) : s.driven.Inv where
  registry_is_table := hs.registry_is_table
  response_legal := hs.response_legal
  halted_requested hh := ⟨(hs.halted_requested hh).1, hrst⟩
  reset_silent hr := absurd (hrst.symm.trans hr) Bool.false_ne_true

theorem State.Inv.noResponse {s : State} (hs : s.Inv) : s.noResponse.Inv where
  registry_is_table := hs.registry_is_table
  response_legal := by simp
  halted_requested := hs.halted_requested
  reset_silent _ := rfl

/-- Reset asks for the registry alone: it clears `halted` and the response (R20). -/
theorem State.inv_applyReset {s : State} (hreg : s.registry = registryTable) : s.applyReset.Inv where
  registry_is_table := hreg
  response_legal := by simp
  halted_requested := by simp
  reset_silent _ := rfl

/-- A running block that acts is halted by the Shutdown action only, which emits the event. -/
theorem State.Inv.action {s : State} (hs : s.Inv) (hrun : Running s) (i : Instr) : (action i s).Inv := by
  obtain ⟨hhalted, hrst⟩ := hrun
  obtain ⟨hreg', hrst', -, -, hwrites⟩ := action_spec i s
  obtain ⟨r, hr, hlegal⟩ := action_response_legal i hs.registry_is_table
  constructor
  case registry_is_table => exact hreg'.trans hs.registry_is_table
  case response_legal =>
    intro r' hr'
    obtain rfl : r = r' := Option.some.inj (hr.symm.trans hr')
    exact hlegal
  case halted_requested =>
    intro hh
    obtain ⟨-, -, hevents⟩ | ⟨-, hsame, -⟩ := hwrites
    · exact ⟨by simp [hevents], hrst'.trans hrst⟩
    · simp [hsame, hhalted] at hh
  case reset_silent => simp [hrst', hrst]

theorem State.Inv.exec {s t : State} {i : Instr} (hs : s.Inv) (h : exec i s = .next t) : t.Inv := by
  rw [exec_eq_accept] at h
  obtain ⟨hrun, rfl⟩ | ⟨-, rfl⟩ := accept_cases h
  · exact hs.action hrun i
  · exact hs.noResponse

/-- Settles O33: by cases over what a step can do, each of whose operations keeps the invariant. -/
theorem stepKeepsTheInvariant : Obligations.StepKeepsTheInvariant := by
  intro s t hs h
  obtain ⟨-, rfl⟩ | ⟨hrst, rfl, -⟩ | ⟨hrst, p, i, -, -, hexec⟩ := step_cases h
  · exact State.inv_applyReset hs.registry_is_table
  · exact (hs.driven hrst).noResponse
  · exact (hs.driven hrst).exec hexec

/-- Settles O32: right after reset there is no response and the block runs. -/
theorem resetMeetsTheInvariant : Obligations.ResetMeetsTheInvariant where
  registry_is_table := rfl
  response_legal := by simp
  halted_requested := by simp
  reset_silent _ := rfl

/-- Settles O25: an instruction takes its action or, not accepted, only drops the last response. -/
theorem onlyShutdownWritesState : Obligations.OnlyShutdownWritesState := by
  intro i s t h
  rw [exec_eq_accept] at h
  obtain ⟨-, rfl⟩ | ⟨hidle, rfl⟩ := accept_cases h
  · obtain ⟨hreg, hrst, hinputs, -, ⟨hb, hhalted, hevents⟩ | ⟨hb, hhalted, hevents⟩⟩ := action_spec i s
    · exact ⟨hreg, hrst, hinputs, by simp [hb], fun _ _ => ⟨hhalted, hevents⟩⟩
    · exact ⟨hreg, hrst, hinputs, fun _ => ⟨hhalted, hevents⟩, by simp [hb]⟩
  · have hnot : ¬ Running s := fun hrun => by simp [accepts_of_running hrun] at hidle
    exact ⟨rfl, rfl, rfl, fun _ => ⟨rfl, rfl⟩, fun _ hrun => absurd hrun hnot⟩

/-! ### Reset -/

theorem not_accepts_of_rst {s : State} (h : s.rst = true) : s.accepts = false := by
  simp [State.accepts, h]

/-- A block in reset with nothing to say drives no output (R20, R22). -/
theorem State.pins_of_in_reset {s : State} (hrst : s.rst = true) (hhalted : s.halted = false)
    (hresp : s.response = none) : s.pins = {} := by
  rw [State.pins_of_no_response hresp, not_accepts_of_rst hrst, hhalted]

/-- Reset wins over whatever is presented with it (R132). -/
theorem step_of_rst {s : State} (h : s.nextDrive.rst = true) : step s = .next s.driven.applyReset := by
  simp [step, h]

/-- Settles O30: the step of a drive with `rst = 1`, and the ports of a block in reset. -/
theorem resetWinsAndClearsHalted : Obligations.ResetWinsAndClearsHalted := by
  intro s rest q h
  have hrst : s.nextDrive.rst = true := by rw [State.nextDrive_of_inputs h]
  refine ⟨?_, State.pins_of_in_reset rfl rfl rfl⟩
  rw [step_of_rst hrst, State.driven_of_inputs h]
  rfl

/-- Settles O31: the fields of the reset state, and the ports of a running block without a response. -/
theorem resetStateIsRunning : Obligations.ResetStateIsRunning := by
  have hrun : Running State.reset := ⟨rfl, rfl⟩
  refine ⟨hrun, rfl, rfl, rfl, rfl, ?_⟩
  rw [State.pins_of_no_response rfl, accepts_of_running hrun, State.reset_halted]

/-! ### A halted block in a run -/

/-- A block that accepts nothing executes nothing. -/
theorem exec_of_not_accepts {s : State} (i : Instr) (h : s.accepts = false) : exec i s = .next s.noResponse := by
  rw [exec_eq_accept, accept_of_not_accepts _ h]

/-- Out of reset a halted block only takes the drive off the ports, whatever is presented (R132, R139). -/
theorem step_of_halted {s : State} (hhalted : s.halted = true) (hrst : s.nextDrive.rst = false) :
    step s = .next s.driven.noResponse := by
  have hidle : s.driven.accepts = false := not_accepts_of_halted hhalted
  cases hq : s.nextDrive.req with
  | none => simp [step, hrst, hq]
  | some p =>
    cases hd : decode p with
    | ok i => simp [step, hrst, hq, hd, exec_of_not_accepts i hidle]
    | error e => simp [step, hrst, hq, hd, refuseUndecodable, hidle]

theorem run_succ_of_step {s t : State} (n : Nat) (h : step s = .next t) : core.run (n + 1) s = core.run n t := by
  have hcore : core.step s = .next t := h
  simp only [Host.Core.run, hcore]

/-- An environment that does not drive `rst` in the next `n + 1` steps does not in the next one; an exhausted list drives
nothing. -/
theorem State.nextDrive_rst_of_take {s : State} {n : Nat} (h : ∀ d ∈ s.inputs.take (n + 1), d.rst = false) :
    s.nextDrive.rst = false := by
  cases hs : s.inputs with
  | nil => rw [State.nextDrive_of_inputs_nil hs]
  | cons d rest =>
    rw [State.nextDrive_of_inputs hs]
    exact h d (by simp [hs])

/-- Nor does it in the `n` steps after that one. -/
theorem State.tail_rst_of_take {s : State} {n : Nat} (h : ∀ d ∈ s.inputs.take (n + 1), d.rst = false) :
    ∀ d ∈ s.inputs.tail.take n, d.rst = false := by
  intro d hd
  apply h
  cases hs : s.inputs with
  | nil => simp [hs] at hd
  | cons d' rest => simpa [hs] using .inr (by simpa [hs] using hd)

/-- A halted block that is silent stays so through every run without reset. -/
theorem run_of_halted_silent (n : Nat) {s : State} (hhalted : s.halted = true) (hresp : s.response = none)
    (hrst : ∀ d ∈ s.inputs.take n, d.rst = false) :
    ∃ t : State, core.run n s = .next t ∧ t.halted = true ∧ t.events = s.events ∧ t.registry = s.registry ∧
      t.response = none := by
  induction n generalizing s with
  | zero => exact ⟨s, rfl, hhalted, rfl, rfl, hresp⟩
  | succ n ih =>
    rw [run_succ_of_step n (step_of_halted hhalted (State.nextDrive_rst_of_take hrst))]
    exact ih (s := s.driven.noResponse) hhalted rfl (State.tail_rst_of_take hrst)

/-- Settles O35: the first step drops the last response, and from then on the halted block is silent. -/
theorem haltedUntilReset : Obligations.HaltedUntilReset := by
  intro n s hhalted hrst
  cases n with
  | zero => exact ⟨s, rfl, hhalted, rfl, rfl, by simp⟩
  | succ n =>
    rw [run_succ_of_step n (step_of_halted hhalted (State.nextDrive_rst_of_take hrst))]
    obtain ⟨t, hrun, hend, hevents, hreg, hresp⟩ :=
      run_of_halted_silent n (s := s.driven.noResponse) hhalted rfl (State.tail_rst_of_take hrst)
    exact ⟨t, hrun, hend, hevents, hreg, fun _ => hresp⟩

/-! ### Request ports (R15) -/

theorem getD_portBuffer (buf : Buffer) {n i : Nat} (h : i < n) : (portBuffer buf n).getD i 0 = buf.getD i 0 := by
  simp [portBuffer, byteAt, h]

/-- A length that `req_len` can carry passes the decoder's test. -/
theorem guardLen_of_le {n : Nat} (i : Instr) (h : n ≤ Config.maxLen) : guardLen n i = .ok i := by
  simp [guardLen, (lenFits_iff n).2 h]

/-- Settles O41: the packing lemmas, and the buffer on the request ports under the three selectors that take one. -/
theorem portsCarryBytesAndWordsInPlace : Obligations.PortsCarryBytesAndWordsInPlace := by
  refine ⟨portByte_packBytes, portWord_packWords, fun p hlen => ?_⟩
  refine ⟨p.buffer, portBuffer_length _ _, fun i hi => getD_portBuffer _ hi, fun hop => ?_, fun hop => ?_,
    fun hop => ?_⟩
  all_goals
    simp only [decode, decodeReq, hop]
    exact guardLen_of_le _ hlen

/-! ### Response ports (R15, R22) -/

theorem State.pins_rspValid (s : State) : s.pins.rspValid = s.response.isSome := by
  cases h : s.response with
  | none => rw [State.pins_of_no_response h]; rfl
  | some r => rw [State.pins_of_response h]; rfl

theorem State.pins_rspOk (s : State) : s.pins.rspOk = s.response.any Response.ok := by
  cases h : s.response with
  | none => rw [State.pins_of_no_response h]; rfl
  | some r => rw [State.pins_of_response h]; rfl

/-- With `rsp_ok = 0` every payload port is 0, with a response and without one (D12). -/
theorem State.pins_of_not_ok {s : State} (h : s.pins.rspOk = false) :
    s.pins = { rspValid := s.response.isSome, reqReady := s.accepts, shutdownReq := s.halted } := by
  rw [State.pins_rspOk] at h
  cases hr : s.response with
  | none => rw [State.pins_of_no_response hr]; rfl
  | some r =>
    have hok : r.ok = false := by simpa [hr] using h
    rw [State.pins_of_response hr, payloadPins_of_not_ok hok, hok]
    rfl

/-- A response that puts the buffer `b` on `rsp_len` and `rsp_buf`. -/
def Response.CarriesBuffer (r : Response) (b : Buffer) : Prop :=
  r = .frame b ∨ r = .sensorBytes b ∨ r = .commandBytes b ∨ r = .dispatchResult (.reply b)

theorem Response.CarriesBuffer.payloadPins {r : Response} {b : Buffer} (h : r.CarriesBuffer b) :
    r.payloadPins = bufferPins b := by
  obtain rfl | rfl | rfl | rfl := h <;> rfl

/-- The legal output buffers have 2, 8, 24 or 52 bytes, so that six bits carry their length (R115, R129). -/
theorem Response.CarriesBuffer.length_lt {r : Response} {b : Buffer} (h : r.CarriesBuffer b) (hl : r.legal = true) :
    b.length < 2 ^ 6 := by
  obtain rfl | rfl | rfl | rfl := h
  · have : b.length = 8 := by simpa [Response.legal] using hl
    omega
  · have : b.length = 52 := by simpa [Response.legal] using hl
    omega
  · have : b.length = 24 := by simpa [Response.legal] using hl
    omega
  · have : (b = ackBytes ∨ b = errBytes) ∨ b = List.replicate 24 0x00#8 := by
      simpa [Response.legal, legalReply] using hl
    obtain (rfl | rfl) | rfl := this <;> decide

/-- The five things a response can put on the payload ports. -/
theorem Response.payload_cases (r : Response) :
    (∃ m, r = .meaning (some m)) ∨ (∃ d v t, r = .canResult (.valid d v t)) ∨ (∃ rec, r = .sensorResult (.ok rec)) ∨
    (∃ b, r.CarriesBuffer b) ∨ r.ok = false := by
  cases r with
  | meaning m => cases m <;> simp [Response.ok]
  | canResult c => cases c <;> simp [Response.ok]
  | sensorResult c => cases c <;> simp [Response.ok]
  | dispatchResult c => cases c <;> simp [Response.ok, Response.CarriesBuffer]
  | nothing => simp [Response.ok]
  | _ => simp [Response.CarriesBuffer]

theorem Response.ok_iff (r : Response) :
    r.ok = true ↔ (∃ m, r = .meaning (some m)) ∨ (∃ b, r = .frame b) ∨ (∃ d v t, r = .canResult (.valid d v t)) ∨
      (∃ b, r = .sensorBytes b) ∨ (∃ rec, r = .sensorResult (.ok rec)) ∨ (∃ b, r = .commandBytes b) ∨
      (∃ b, r = .dispatchResult (.reply b)) := by
  cases r with
  | meaning m => cases m <;> simp [Response.ok]
  | canResult c => cases c <;> simp [Response.ok]
  | sensorResult c => cases c <;> simp [Response.ok]
  | dispatchResult c => cases c <;> simp [Response.ok]
  | _ => simp [Response.ok]

/-- On a buffer port the bytes from the length on are 0, as long as six bits carry the length. -/
theorem bufferPins_rspBuf_beyond {b : Buffer} {k : Nat} (hb : b.length < 2 ^ 6) (hk : (bufferPins b).rspLen.toNat ≤ k) :
    portByte (bufferPins b).rspBuf k = 0 := by
  refine portByte_packBytes_of_length_le b k ?_
  rwa [bufferPins, BitVec.toNat_ofNat, Nat.mod_eq_of_lt hb] at hk

theorem portByte_zero (k : Nat) : portByte 0 k = 0 := by
  simp [portByte]

/-- The payload ports of a legal response carry nothing beyond `rsp_len`. -/
theorem payloadPins_rspBuf_beyond {r : Response} {k : Nat} (hl : r.legal = true)
    (hk : r.payloadPins.rspLen.toNat ≤ k) : portByte r.payloadPins.rspBuf k = 0 := by
  obtain ⟨m, rfl⟩ | ⟨d, v, t, rfl⟩ | ⟨rec, rfl⟩ | ⟨b, hb⟩ | hok := r.payload_cases
  · exact portByte_zero k
  · exact portByte_zero k
  · exact portByte_zero k
  · rw [hb.payloadPins] at hk ⊢
    exact bufferPins_rspBuf_beyond (hb.length_lt hl) hk
  · rw [payloadPins_of_not_ok hok]
    exact portByte_zero k

/-- A payload port that is not the response's own is 0 (D12). -/
theorem payloadPins_unused (r : Response) :
    ((∀ m, r ≠ .meaning (some m)) → r.payloadPins.rspBand = 0) ∧
    ((∀ d v t, r ≠ .canResult (.valid d v t)) →
      r.payloadPins.rspDataId = 0 ∧ r.payloadPins.rspValue = 0 ∧ r.payloadPins.rspTimestamp = 0) ∧
    ((∀ rec, r ≠ .sensorResult (.ok rec)) → r.payloadPins.rspWords = 0) ∧
    ((∀ b, ¬ r.CarriesBuffer b) → r.payloadPins.rspLen = 0 ∧ r.payloadPins.rspBuf = 0) := by
  obtain ⟨m, rfl⟩ | ⟨d, v, t, rfl⟩ | ⟨rec, rfl⟩ | ⟨b, hb⟩ | hok := r.payload_cases
  · simp
  · simp
  · simp
  · rw [hb.payloadPins]
    exact ⟨fun _ => rfl, fun _ => ⟨rfl, rfl, rfl⟩, fun _ => rfl, fun h => absurd hb (h b)⟩
  · simp [payloadPins_of_not_ok hok]

/-- Settles O42: each port as a function of the response, by what the response carries. -/
theorem unusedResponsePortsAreZero : Obligations.UnusedResponsePortsAreZero := by
  refine ⟨fun s => ⟨accepts_iff_running s, ?_, ?_, fun hok => ?_⟩, fun s r hr => ?_, fun s k hs hk => ?_⟩
  · rw [State.pins_rspValid, Option.isSome_iff_ne_none]
  · rw [State.pins_rspOk]
    cases h : s.response with
    | none => simp
    | some r => simpa using r.ok_iff
  · rw [State.pins_of_not_ok hok]
    exact ⟨rfl, rfl, rfl, rfl, rfl, rfl, rfl⟩
  · rw [State.pins_of_response hr]
    obtain ⟨hband, hcan, hwords, hbuf⟩ := payloadPins_unused r
    refine ⟨hband, hcan, hwords, fun h => hbuf fun b hb => ?_⟩
    obtain ⟨hframe, hsens, hcmd, hreply⟩ := h b
    simp [Response.CarriesBuffer, hframe, hsens, hcmd, hreply] at hb
  · cases hr : s.response with
    | none =>
      rw [State.pins_of_no_response hr]
      exact portByte_zero k
    | some r =>
      rw [State.pins_of_response hr] at hk ⊢
      exact payloadPins_rspBuf_beyond (hs.response_legal r hr) hk

/-! ### The clocked block -/

/-- The block in a cycle out of reset that gives no response. -/
def State.quiet (s : State) : State := { s with rst := false, response := none }

@[simp] theorem State.quiet_halted (s : State) : s.quiet.halted = s.halted := rfl
@[simp] theorem State.quiet_quiet (s : State) : s.quiet.quiet = s.quiet := rfl
@[simp] theorem State.quiet_noResponse (s : State) : s.quiet.noResponse = s.quiet := rfl

@[simp] theorem Clocked.complete_flight (i : Instr) (b : State) : (Clocked.complete i b).flight = none := by
  obtain ⟨t, -, e⟩ := Clocked.complete_eq i b
  rw [e]

theorem Clocked.tick_of_rst {c : Clocked} {i : InPins} (lat : Nat) (h : i.rst = true) :
    c.tick lat i = ⟨{ c.block with rst := true, response := none, halted := false }, none⟩ := by
  simp [Clocked.tick, h, State.applyReset]

/-- The response is due: the request in flight completes. -/
theorem Clocked.tick_of_due {i : InPins} (lat : Nat) (instr : Instr) (b : State) (h : i.rst = false) :
    (Clocked.mk b (some ⟨instr, 0⟩)).tick lat i = Clocked.complete instr b.quiet := by
  simp [Clocked.tick, h, State.quiet]

theorem Clocked.tick_of_waiting {i : InPins} (lat : Nat) (instr : Instr) (b : State) (n : Nat) (h : i.rst = false) :
    (Clocked.mk b (some ⟨instr, n + 1⟩)).tick lat i = ⟨b.quiet, some ⟨instr, n⟩⟩ := by
  simp [Clocked.tick, h, State.quiet]

theorem Clocked.ready_of_free {c : Clocked} {i : InPins} (hhalted : c.block.halted = false) (hfree : c.flight = none)
    (hrst : i.rst = false) : c.ready i = true := by
  simp [Clocked.ready, hhalted, hfree, hrst]

/-- A request presented to a block that is ready is accepted. -/
theorem Clocked.tick_of_asked {c : Clocked} {p : ReqPorts} {instr : Instr} (lat : Nat) (hhalted : c.block.halted = false)
    (hfree : c.flight = none) (hd : decode (.req p) = .ok instr) :
    c.tick lat ⟨false, true, p⟩ = Clocked.launch lat instr c.block.quiet := by
  simp [Clocked.tick, hfree, hd, Clocked.ready_of_free (i := ⟨false, true, p⟩) hhalted hfree rfl, State.quiet]

/-- While a request waits, cycles out of reset count down and do nothing else, whatever the request ports carry. -/
theorem Clocked.cycles_of_waiting (lat : Nat) (instr : Instr) (b : State) (n : Nat) {is : List InPins}
    (hrst : ∀ j ∈ is, j.rst = false) :
    (Clocked.mk b.quiet (some ⟨instr, n + is.length⟩)).cycles lat is = ⟨b.quiet, some ⟨instr, n⟩⟩ := by
  induction is with
  | nil => rfl
  | cons j is ih =>
    obtain ⟨hj, his⟩ := List.forall_mem_cons.1 hrst
    rw [Clocked.cycles_cons, List.length_cons, ← Nat.add_assoc, Clocked.tick_of_waiting _ _ _ _ hj, State.quiet_quiet]
    exact ih his

/-- From acceptance on, the request completes in the last of `lat` cycles out of reset. -/
theorem Clocked.cycles_of_launch (lat : Nat) (instr : Instr) (b : State) {is : List InPins}
    (hrst : ∀ j ∈ is, j.rst = false) (hlen : is.length = lat) :
    (Clocked.launch lat instr b.quiet).cycles lat is = Clocked.complete instr b.quiet := by
  cases is using List.reverseRecOn with
  | nil => subst hlen; rfl
  | append_singleton is j =>
    obtain ⟨his, hj⟩ : (∀ j ∈ is, j.rst = false) ∧ j.rst = false := by simpa [or_imp, forall_and] using hrst
    have hlat : lat = 0 + is.length + 1 := by simpa using hlen.symm
    have hlaunch : Clocked.launch lat instr b.quiet = ⟨b.quiet, some ⟨instr, 0 + is.length⟩⟩ := by rw [hlat]; rfl
    rw [hlaunch, Clocked.cycles_append, Clocked.cycles_of_waiting lat instr b 0 his, Clocked.cycles_cons,
      Clocked.tick_of_due _ _ _ hj, Clocked.cycles_nil, State.quiet_quiet]

/-- In fewer than `lat` cycles after acceptance the request is still in flight. -/
theorem Clocked.cycles_of_launch_waiting {lat : Nat} (instr : Instr) (b : State) {is : List InPins}
    (hrst : ∀ j ∈ is, j.rst = false) (hlt : is.length < lat) :
    (Clocked.launch lat instr b.quiet).cycles lat is = ⟨b.quiet, some ⟨instr, lat - 1 - is.length⟩⟩ := by
  have hlaunch : Clocked.launch lat instr b.quiet = ⟨b.quiet, some ⟨instr, lat - 1 - is.length + is.length⟩⟩ := by
    obtain ⟨n, rfl⟩ := Nat.exists_eq_succ_of_ne_zero (Nat.ne_zero_of_lt hlt)
    rw [Nat.sub_add_cancel (by omega)]
    rfl
  rw [hlaunch, Clocked.cycles_of_waiting lat instr b _ hrst]

/-- Settles O43: acceptance puts the request in flight, and the later cycles only count it down to its completion, which is
the instruction's next state. -/
theorem clockedRequestIsAnsweredAfterLat : Obligations.ClockedRequestIsAnsweredAfterLat := by
  intro lat c p i later hhalted hfree hd hrst hlen asked
  have haccept : c.tick lat asked = Clocked.launch lat i c.block.quiet := Clocked.tick_of_asked lat hhalted hfree hd
  refine ⟨Clocked.ready_of_free hhalted hfree rfl, fun n hn => ?_, ?_⟩
  · have hlen' : (later.take n).length = n := by simp; omega
    have hwait := Clocked.cycles_of_launch_waiting i c.block (fun j hj => hrst j (List.mem_of_mem_take hj))
      (hlen'.trans_lt hn)
    rw [hlen'] at hwait
    rw [Clocked.cycles_cons, haccept, hwait]
    exact ⟨_, rfl, rfl, by dsimp only; omega, fun j => by simp [Clocked.ready]⟩
  · obtain ⟨t, hexec, hcomplete⟩ := Clocked.complete_eq i c.block.quiet
    refine ⟨t, hexec, ?_⟩
    rw [Clocked.cycles_cons, haccept, Clocked.cycles_of_launch lat i c.block hrst hlen, hcomplete]

/-- Settles O44: the cycle's next state written out, and the ports of a block in reset. -/
theorem clockedResetDropsTheRequest : Obligations.ClockedResetDropsTheRequest := by
  intro lat c i h
  have hready : c.ready i = false := by simp [Clocked.ready, h]
  simp only [Clocked.pins, Clocked.tick_of_rst lat h, hready, State.pins_of_in_reset, and_self]

/-- A halted block that completes a request only drops the last response. -/
theorem Clocked.complete_of_halted (i : Instr) {b : State} (h : b.halted = true) :
    Clocked.complete i b = ⟨b.noResponse, none⟩ :=
  Clocked.complete_of_exec (exec_of_not_accepts i (not_accepts_of_halted h))

/-- A cycle out of reset leaves a halted block as it was but for the response. -/
theorem Clocked.tick_block_of_halted {c : Clocked} {i : InPins} (lat : Nat) (hhalted : c.block.halted = true)
    (hrst : i.rst = false) : (c.tick lat i).block = c.block.quiet := by
  have hb : { c.block with rst := i.rst, response := none } = c.block.quiet := by rw [hrst]; rfl
  have hcases := Clocked.tick_cases c lat i
  simp only [hb] at hcases
  obtain ⟨h, -⟩ | ⟨-, instr, -, e⟩ | ⟨-, instr, n, -, e⟩ | ⟨-, -, h, -⟩ | ⟨-, -, e⟩ := hcases
  · simp [hrst] at h
  · rw [e, Clocked.complete_of_halted (b := c.block.quiet) instr hhalted, State.quiet_noResponse]
  · rw [e]
  · simp [hhalted] at h
  · rw [e]

/-- That nothing is in flight while halted, every cycle keeps: only a running block launches a request. -/
theorem Clocked.tick_keeps_halted_free {c : Clocked} (lat : Nat) (i : InPins)
    (hfree : c.block.halted = true → c.flight = none) (hhalted : (c.tick lat i).block.halted = true) :
    (c.tick lat i).flight = none := by
  obtain ⟨-, e⟩ | ⟨-, instr, -, e⟩ | ⟨-, instr, n, hf, e⟩ | ⟨-, -, h, -, instr, -, e⟩ | ⟨-, -, e⟩ :=
    Clocked.tick_cases c lat i
  · rw [e]
  · rw [e, Clocked.complete_flight]
  · rw [e] at hhalted
    simp [hfree hhalted] at hf
  · cases lat with
    | zero => rw [e]; exact Clocked.complete_flight instr _
    | succ n =>
      rw [e] at hhalted
      exact absurd (h.symm.trans hhalted) Bool.false_ne_true
  · rw [e]

/-- A halted block with nothing in flight starts nothing in a cycle out of reset. -/
theorem Clocked.tick_flight_of_halted {c : Clocked} {i : InPins} (lat : Nat) (hhalted : c.block.halted = true)
    (hrst : i.rst = false) (hfree : c.flight = none) : (c.tick lat i).flight = none :=
  Clocked.tick_keeps_halted_free lat i (fun _ => hfree)
    (by rw [Clocked.tick_block_of_halted lat hhalted hrst]; exact hhalted)

/-- A halted block without a response drives `shutdown_req` and nothing else (R22, R110). -/
theorem State.pins_of_halted_silent {s : State} (hhalted : s.halted = true) (hresp : s.response = none) :
    s.pins = { shutdownReq := true } := by
  rw [State.pins_of_no_response hresp, not_accepts_of_halted hhalted, hhalted]

theorem Clocked.not_ready_of_halted {c : Clocked} (i : InPins) (hhalted : c.block.halted = true) : c.ready i = false := by
  simp [Clocked.ready, hhalted]

theorem Clocked.cycles_of_halted {c : Clocked} (lat : Nat) {is : List InPins} (hhalted : c.block.halted = true)
    (hne : is ≠ []) (hrst : ∀ i ∈ is, i.rst = false) :
    (c.cycles lat is).block = c.block.quiet ∧ (c.flight = none → (c.cycles lat is).flight = none) := by
  induction is generalizing c with
  | nil => exact absurd rfl hne
  | cons i is ih =>
    obtain ⟨hi, his⟩ := List.forall_mem_cons.1 hrst
    have hblock := Clocked.tick_block_of_halted lat hhalted hi
    have hflight := Clocked.tick_flight_of_halted lat hhalted hi
    rw [Clocked.cycles_cons]
    by_cases hnil : is = []
    · subst hnil
      exact ⟨hblock, hflight⟩
    · obtain ⟨hb, hf⟩ := ih (c := c.tick lat i) (by rw [hblock]; exact hhalted) hnil his
      exact ⟨by rw [hb, hblock, State.quiet_quiet], hf ∘ hflight⟩

/-- Settles O45: one cycle of a halted block, then any number by induction over the cycles. -/
theorem haltedClockedBlockIsSilent : Obligations.HaltedClockedBlockIsSilent := by
  refine ⟨fun lat c i hhalted => ⟨Clocked.not_ready_of_halted i hhalted, fun hrst => ?_⟩,
    fun lat c is hhalted hne hrst => Clocked.cycles_of_halted lat hhalted hne hrst,
    fun lat c i hfree => Clocked.tick_keeps_halted_free lat i hfree⟩
  have hblock := Clocked.tick_block_of_halted lat hhalted hrst
  refine ⟨hblock, Clocked.tick_flight_of_halted lat hhalted hrst, ?_⟩
  rw [Clocked.pins, hblock, Clocked.not_ready_of_halted i hhalted,
    State.pins_of_halted_silent (s := c.block.quiet) hhalted rfl]

end Sys2Proof.Machine

/-! ## Buffers (20_memory.md)

No instruction but the Shutdown action has a lasting effect, and of a buffer only the bytes inside a right length are read. -/

namespace Sys2Proof.Machine

/-! ### An instruction executed again (R29) -/

theorem State.eq_of_fields {s t : State} (hhalted : s.halted = t.halted) (hreg : s.registry = t.registry)
    (hrst : s.rst = t.rst) (hinputs : s.inputs = t.inputs) (hresp : s.response = t.response)
    (hevents : s.events = t.events) : s = t := by
  cases s; cases t
  simp_all only

/-- An action that does not halt writes the response alone, and the response reads none of what it writes. -/
theorem action_action_of_not_halting (i : Instr) (s : State) (h : haltsBlock i = false) :
    action i (action i s) = action i s := by
  have hresp : (action i (action i s)).response = (action i s).response :=
    action_response_congr i (action_spec i s).1
  obtain ⟨hreg, hrst, hinputs, -, ⟨hb, -, -⟩ | ⟨-, hhalted, hevents⟩⟩ := action_spec i (action i s)
  · exact absurd (h.symm.trans hb) Bool.false_ne_true
  · exact State.eq_of_fields hhalted hreg hrst hinputs hresp hevents

/-- A running block still runs after an action that does not halt. -/
theorem running_action_of_not_halting {i : Instr} {s : State} (h : haltsBlock i = false) (hrun : Running s) :
    Running (action i s) := by
  obtain ⟨-, hrst, -⟩ := action_spec i s
  exact ⟨(action_halted_of_running i hrun.1).trans h, hrst.trans hrun.2⟩

/-- Settles O27: an accepted action leaves the block running and is idempotent; a request that is not accepted is not
accepted again. -/
theorem nonHaltingInstructionsAreIdempotent : Obligations.NonHaltingInstructionsAreIdempotent := by
  intro i s t hb h
  rw [exec_eq_accept] at h
  obtain ⟨hrun, rfl⟩ | ⟨hidle, rfl⟩ := accept_cases h
  · rw [exec_of_running i (running_action_of_not_halting hb hrun), action_action_of_not_halting i s hb]
  · exact exec_of_not_accepts (s := s.noResponse) i hidle

/-! ### Buffers of a wrong length (R32) -/

theorem canDecode_of_length_ne {b : Buffer} (h : b.length ≠ 8) : canDecode b = .invalid := by
  simp [canDecode, h]

theorem decodeSensor_of_length_ne (o : SerialOrder) {b : Buffer} (h : b.length ≠ 52) :
    decodeSensor o b = .err .lengthMismatch := by
  simp [decodeSensor, h]

/-- DISPATCH reads a payload only as PAYLOAD, whose length is 52. -/
theorem actDispatch_congr_of_length_ne (o : Byte) {b b' : Buffer} (h : b.length ≠ 52) (h' : b'.length ≠ 52) :
    actDispatch o b = actDispatch o b' := by
  funext s
  unfold actDispatch
  cases SlaveOpcode.ofByte o with
  | none => rfl
  | some op =>
    cases op with
    | ping => rfl
    | shutdown => rfl
    | payload => simp [h, h']

/-- Instructions with one action have one outcome in every state. -/
theorem exec_congr {i j : Instr} (h : action i = action j) (s : State) : exec i s = exec j s := by
  rw [exec_eq_accept, exec_eq_accept, h]

/-! ### Bytes beyond the length (R15) -/

theorem portBuffer_congr {buf buf' : Buffer} {n : Nat} (h : ∀ i, i < n → buf.getD i 0 = buf'.getD i 0) :
    portBuffer buf n = portBuffer buf' n :=
  List.map_congr_left fun i hi => h i (List.mem_range.1 hi)

/-- The decoder sees `req_buf` through the buffer that `req_len` cuts out of it. -/
theorem decodeReq_with_buf {p : ReqPorts} {buf : Buffer} (h : p.buffer = { p with buf := buf }.buffer) :
    decodeReq p = decodeReq { p with buf := buf } := by
  unfold decodeReq
  rw [h]
  rfl

/-- Settles O28: a wrong length fixes the action of each instruction that takes a buffer, and the decoder reads the bytes
below `req_len` alone. -/
theorem onlyBytesInsideARightLengthAreRead : Obligations.OnlyBytesInsideARightLengthAreRead := by
  refine ⟨fun s b b' hlen h => exec_congr ?_ s, fun s b b' hlen h => exec_congr ?_ s,
    fun s o b b' hlen h => exec_congr ?_ s, fun p buf h => ?_⟩
  · simp only [action, canDecode_of_length_ne h, canDecode_of_length_ne (hlen ▸ h)]
  · simp only [action, decodeSensor_of_length_ne _ h, decodeSensor_of_length_ne _ (hlen ▸ h)]
  · exact actDispatch_congr_of_length_ne o h (hlen ▸ h)
  · exact decodeReq_with_buf (portBuffer_congr h)

end Sys2Proof.Machine

/-! ## Encodings (30_encoding.md)

The decoder and the encoder are inverse to each other, format by format; then the pseudo-operations and the reserved
selector as instructions. -/

namespace Sys2Proof

open Machine

/-! ### Format REQ (R51): lengths and records on the ports -/

theorem guardLen_of_lenFits {n : Nat} (i : Instr) (h : lenFits n = true) : guardLen n i = .ok i :=
  guardLen_of_le i ((lenFits_iff n).1 h)

/-- An instruction with a buffer that fits the ports is read with the whole buffer. -/
theorem guardLen_portBuffer (f : Buffer → Instr) {b : Buffer} (h : lenFits b.length = true) :
    guardLen b.length (f (portBuffer b b.length)) = .ok (f b) := by
  rw [portBuffer_self, guardLen_of_lenFits _ h]

/-- What the length test lets through is unchanged and fits the ports. -/
theorem guardLen_eq_ok {n : Nat} {i j : Instr} (h : guardLen n i = .ok j) : lenFits n = true ∧ i = j := by
  unfold guardLen at h
  split at h
  next hn => exact ⟨hn, Except.ok.inj h⟩
  next => cases h

/-- The words of a sensor record on `req_words` are read as that record. -/
theorem ofWords_packWords_sensor (r : SensorRecord) : SensorRecord.ofWords (portWord (packWords r.words)) = r := by
  simp [SensorRecord.ofWords, portWord_packWords, SensorRecord.words]

/-- The words of a command record on `req_words` are read as that record. -/
theorem ofWords_packWords_command (c : CommandRecord) : CommandRecord.ofWords (portWord (packWords c.words)) = c := by
  simp [CommandRecord.ofWords, portWord_packWords, CommandRecord.words]

/-- A selector gives a well-formed instruction or, if it takes a buffer, one that is well-formed when `req_len` fits. -/
theorem decodeReq_cases (p : ReqPorts) :
    (∃ i, i.wf = true ∧ decodeReq p = .ok i) ∨
    (∃ i, i.wf = lenFits p.len ∧ decodeReq p = guardLen p.len i) := by
  have hbuf : lenFits p.buffer.length = lenFits p.len := congrArg lenFits (portBuffer_length p.buf p.len)
  unfold decodeReq
  split
  case h_1 => exact .inl ⟨_, rfl, rfl⟩
  case h_2 => exact .inl ⟨_, rfl, rfl⟩
  case h_3 => exact .inr ⟨.canDec p.buffer, hbuf, rfl⟩
  case h_4 => exact .inl ⟨_, rfl, rfl⟩
  case h_5 => exact .inr ⟨.sensDec p.buffer, hbuf, rfl⟩
  case h_6 => exact .inl ⟨_, rfl, rfl⟩
  case h_7 => exact .inr ⟨.dispatch p.opcode p.buffer, hbuf, rfl⟩
  case h_8 => exact .inl ⟨_, rfl, rfl⟩

/-! ### Format MSG (R52): opcode, then length -/

theorem SlaveOpcode.ofByte_eq_none_iff (b : Byte) :
    SlaveOpcode.ofByte b = none ↔ b ≠ 0x00#8 ∧ b ≠ 0x01#8 ∧ b ≠ 0x02#8 := by
  unfold SlaveOpcode.ofByte
  split_ifs <;> simp_all

theorem decodeMsg_payload (p : Vector Byte 52) : decodeMsg 0x02#8 p.toList = .payload p := by
  simp [decodeMsg]

theorem decodeMsg_payloadBadlen (p : BadLenPayload) : decodeMsg 0x02#8 p.bytes = .payloadBadlen p := by
  simp [decodeMsg, p.badLen]

theorem decodeMsg_nopUnknown (o : UnknownOpcode) (p : Buffer) : decodeMsg o.byte p = .nopUnknown o p := by
  obtain ⟨h0, h1, h2⟩ := o.unknown
  simp [decodeMsg, h0, h1, h2]

/-- The message of an instruction of format MSG is the message it is decoded from. -/
theorem encode_decodeMsg (o : Byte) (p : Buffer) : encode (decodeMsg o p) = .msg o p := by
  unfold decodeMsg
  split_ifs with h0 h1 h2 h
  · rw [h0]; rfl
  · rw [h1]; rfl
  · rw [h2]; simp [encode]
  · rw [h2]; rfl
  · rfl

theorem decodeMsg_wf (o : Byte) {p : Buffer} (h : lenFits p.length = true) : (decodeMsg o p).wf = true := by
  unfold decodeMsg
  split_ifs
  case pos => exact h
  case pos => exact h
  case pos => rfl
  case neg => exact h
  case neg => exact h

/-! ### Format CANFRAME (R60): the bits a row fixes and the 24 bits of the timestamp -/

theorem pseudoMask_eq_append : pseudoMask = BitVec.allOnes 40 ++ 0#24 := by decide

/-- Under the mask the upper 40 bits stay and the lower 24 are cleared. -/
theorem append_and_pseudoMask (hi : BitVec 40) (lo : BitVec 24) : (hi ++ lo) &&& pseudoMask = hi ++ 0#24 := by
  rw [pseudoMask_eq_append, BitVec.and_append, BitVec.and_allOnes, BitVec.and_zero]

theorem pseudoPattern_and_pseudoMask (v : Word) (d : Byte) (ts : Word) :
    pseudoPattern v d ts &&& pseudoMask = v ++ d ++ 0#24 :=
  append_and_pseudoMask (v ++ d) (ts.extractLsb' 0 24)

theorem pseudoPattern_timestamp (v : Word) (d : Byte) (ts : Word) :
    (pseudoPattern v d ts).extractLsb' 0 24 = ts.extractLsb' 0 24 :=
  BitVec.extractLsb'_append_eq_right

/-- A number that a row matches is the row's pattern with the number's low 24 bits as the timestamp. -/
theorem pseudoPattern_of_and_pseudoMask {n : BitVec 64} {v : Word} {d : Byte}
    (h : n &&& pseudoMask = v ++ d ++ 0#24) : pseudoPattern v d ((n.extractLsb' 0 24).setWidth 32) = n := by
  have hn : n.extractLsb' 24 40 ++ n.extractLsb' 0 24 = n := BitVec.extractLsb'_append_extractLsb'
  have hhigh : v ++ d = n.extractLsb' 24 40 := by
    rw [← hn, append_and_pseudoMask, BitVec.append_left_inj] at h
    exact h.symm
  rw [pseudoPattern, hhigh, BitVec.extractLsb'_setWidth_of_le (by decide), BitVec.extractLsb'_eq_self]
  exact hn

theorem tsFits_setWidth (t : BitVec 24) : tsFits (t.setWidth 32) = true := by
  have := t.isLt
  simp only [tsFits, decide_eq_true_eq]
  rwa [BitVec.toNat_setWidth_of_le (by decide)]

/-- A timestamp that fits is its low 24 bits. -/
theorem setWidth_extractLsb'_of_tsFits {ts : Word} (h : tsFits ts = true) :
    (ts.extractLsb' 0 24).setWidth 32 = ts := by
  have hlt : ts.toNat < 2 ^ 24 := of_decide_eq_true h
  apply BitVec.eq_of_toNat_eq
  rw [BitVec.toNat_setWidth_of_le (by decide), BitVec.extractLsb'_toNat, Nat.shiftRight_zero, Nat.mod_eq_of_lt hlt]

theorem decode_encode_tvcBoot (ts : Word) :
    decode (encode (.tvcBoot ts)) = .ok (.tvcBoot ((ts.extractLsb' 0 24).setWidth 32)) := by
  simp [decode, encode, decodePseudo, pseudoPattern_and_pseudoMask, pseudoPattern_timestamp, tvcBootCode, tvcCommandId]

theorem decode_encode_tvcShutdown (ts : Word) :
    decode (encode (.tvcShutdown ts)) = .ok (.tvcShutdown ((ts.extractLsb' 0 24).setWidth 32)) := by
  simp [decode, encode, decodePseudo, pseudoPattern_and_pseudoMask, pseudoPattern_timestamp, tvcShutdownCode,
    tvcCommandId]

theorem decode_encode_tvcAbort (ts : Word) :
    decode (encode (.tvcAbort ts)) = .ok (.tvcAbort ((ts.extractLsb' 0 24).setWidth 32)) := by
  simp [decode, encode, decodePseudo, pseudoPattern_and_pseudoMask, pseudoPattern_timestamp, tvcAbortCode, tvcCommandId]

/-- A pattern that decodes is the pattern of what it decodes to, whose timestamp fits its row. -/
theorem decodePseudo_eq_ok {n : BitVec 64} {i : Instr} (h : decodePseudo n = .ok i) :
    i.wf = true ∧ encode i = .pseudo n := by
  unfold decodePseudo at h
  simp only at h
  split_ifs at h with hboot hshutdown habort
  all_goals
    cases h
    refine ⟨tsFits_setWidth _, congrArg Presented.pseudo (pseudoPattern_of_and_pseudoMask ?_)⟩
  · exact hboot
  · exact hshutdown
  · exact habort

/-! ### The obligations about decoder and encoder -/

/-- Settles O36: by cases over the instructions: the ports, the message or the pattern of each is read back operand by
operand. -/
theorem decodeOfEncodeIsTheInstruction : Obligations.DecodeOfEncodeIsTheInstruction := by
  intro i hwf
  cases i with
  | resolve id => rfl
  | canEnc d v t => rfl
  | canDec b => exact guardLen_portBuffer .canDec hwf
  | sensEnc r => exact congrArg (fun r => Except.ok (Instr.sensEnc r)) (ofWords_packWords_sensor r)
  | sensDec b => exact guardLen_portBuffer .sensDec hwf
  | cmdEnc c => exact congrArg (fun c => Except.ok (Instr.cmdEnc c)) (ofWords_packWords_command c)
  | dispatch o p => exact guardLen_portBuffer (.dispatch o) hwf
  | reserved7 => rfl
  | ping p => exact guardLen_of_lenFits (.ping p) hwf
  | shutdown p => exact guardLen_of_lenFits (.shutdown p) hwf
  | payload p =>
    have hlen : lenFits p.toList.length = true := by rw [Vector.length_toList]; rfl
    rw [encode, decode, decodeMsg_payload, guardLen_of_lenFits _ hlen]
  | payloadBadlen p => rw [encode, decode, decodeMsg_payloadBadlen, guardLen_of_lenFits _ hwf]
  | nopUnknown o p => rw [encode, decode, decodeMsg_nopUnknown, guardLen_of_lenFits _ hwf]
  | tvcBoot ts => rw [decode_encode_tvcBoot, setWidth_extractLsb'_of_tsFits hwf]
  | tvcShutdown ts => rw [decode_encode_tvcShutdown, setWidth_extractLsb'_of_tsFits hwf]
  | tvcAbort ts => rw [decode_encode_tvcAbort, setWidth_extractLsb'_of_tsFits hwf]

/-- Settles O37: format by format, with the length test of the selectors that take a buffer as the only refusal. -/
theorem decodedInstructionsAreWellFormed : Obligations.DecodedInstructionsAreWellFormed := by
  refine ⟨fun p i h => ?_, fun p hlen => ?_⟩
  · cases p with
    | req p =>
      change decodeReq p = .ok i at h
      obtain ⟨j, hwf, hj⟩ | ⟨j, hwf, hj⟩ := decodeReq_cases p
      · cases hj.symm.trans h
        exact hwf
      · obtain ⟨hfits, rfl⟩ := guardLen_eq_ok (hj.symm.trans h)
        exact hwf.trans hfits
    | msg o b =>
      obtain ⟨hfits, rfl⟩ := guardLen_eq_ok h
      exact decodeMsg_wf o hfits
    | pseudo n => exact (decodePseudo_eq_ok h).1
  · obtain ⟨i, -, hi⟩ | ⟨i, -, hi⟩ := decodeReq_cases p
    · exact ⟨i, hi⟩
    · exact ⟨i, hi.trans (guardLen_of_le i hlen)⟩

/-- Settles O38: the message and the pattern are kept by decoding, and a pattern holds the low 24 bits of its timestamp. -/
theorem encodeOfDecodeIsTheMessage : Obligations.EncodeOfDecodeIsTheMessage := by
  refine ⟨fun o p i h => ?_, fun n i h => (decodePseudo_eq_ok h).2,
    fun ts => ⟨decode_encode_tvcBoot ts, decode_encode_tvcShutdown ts, decode_encode_tvcAbort ts⟩⟩
  obtain ⟨-, rfl⟩ := guardLen_eq_ok h
  exact encode_decodeMsg o p

/-! ### The rows of NOP_UNKNOWN (R53) -/

/-- The three opcodes and the seven rows cover all bytes, each once: the 256 bytes evaluated. -/
theorem opcodes_count_add_rows_countP (w : Byte) :
    [0x00#8, 0x01#8, 0x02#8].count w + unknownOpcodeRows.countP (rowMatches · w) = 1 := by
  revert w
  decide

/-- By the cover, a row matches exactly the bytes that are none of the three opcodes. -/
theorem exists_rowMatches_iff (w : Byte) :
    (∃ row ∈ unknownOpcodeRows, rowMatches row w = true) ↔ SlaveOpcode.ofByte w = none := by
  have hcover := opcodes_count_add_rows_countP w
  calc (∃ row ∈ unknownOpcodeRows, rowMatches row w = true)
      ↔ 0 < unknownOpcodeRows.countP (rowMatches · w) := List.countP_pos_iff.symm
    _ ↔ [0x00#8, 0x01#8, 0x02#8].count w = 0 := by omega
    _ ↔ w ≠ 0x00#8 ∧ w ≠ 0x01#8 ∧ w ≠ 0x02#8 := by simp [List.count_eq_zero]
    _ ↔ SlaveOpcode.ofByte w = none := (SlaveOpcode.ofByte_eq_none_iff w).symm

/-- The decoder reads a message as NOP_UNKNOWN exactly when its opcode is no `SlaveOpcode`. -/
theorem ofByte_eq_none_iff_decode (w : Byte) {p : Buffer} (hlen : p.length ≤ Config.maxLen) :
    SlaveOpcode.ofByte w = none ↔
      ∃ u : UnknownOpcode, u.byte = w ∧ decode (.msg w p) = .ok (.nopUnknown u p) := by
  rw [SlaveOpcode.ofByte_eq_none_iff]
  constructor
  · intro h
    refine ⟨⟨w, h⟩, rfl, ?_⟩
    rw [decode, decodeMsg_nopUnknown ⟨w, h⟩, guardLen_of_le _ hlen]
  · rintro ⟨u, rfl, -⟩
    exact u.unknown

/-- Settles O39: the cover is evaluated, and with it the rows match the bytes that are no `SlaveOpcode`, which the decoder
reads as NOP_UNKNOWN. -/
theorem unknownOpcodeRowsPartition : Obligations.UnknownOpcodeRowsPartition :=
  ⟨fun w _ hlen => (exists_rowMatches_iff w).trans (ofByte_eq_none_iff_decode w hlen), exists_rowMatches_iff,
    opcodes_count_add_rows_countP⟩

/-- Settles O40: the decoder evaluated on four words. -/
theorem specWordsDecode : Obligations.SpecWordsDecode := ⟨rfl, rfl, rfl, rfl⟩

/-! ### The pseudo-operations and the reserved selector as instructions (R57, R60) -/

/-- A word followed by a word of four bytes, or by its first byte and then its last three. -/
theorem append_bytes4_assoc (v : Word) (d a b c : Byte) : v ++ (d ++ a ++ b ++ c) = v ++ d ++ (a ++ b ++ c) := by
  ext i hi
  grind

/-- The integer view of the frame of CAN_ENC is the pattern of its operands (R41). -/
theorem frameNumber_canEncode (d : Byte) (v t : Word) : frameNumber (canEncode d v t) = pseudoPattern v d t := by
  rw [canEncode, beBytes3_setWidth, pseudoPattern, ← join_bytes3, ← append_bytes4_assoc, frameNumber]
  exact congrArg (· ++ _) (join_bytes4 v)

/-- Settles O9: each pseudo-operation takes the action of its CAN_ENC, whose frame is the pattern of the row. -/
theorem tvcPseudoOperationsAreCanEnc : Obligations.TvcPseudoOperationsAreCanEnc := by
  have hmask (v ts : Word) :
      frameNumber (canEncode tvcCommandId v ts) &&& 0xFFFFFFFFFF000000#64 = v ++ tvcCommandId ++ 0#24 := by
    rw [frameNumber_canEncode]
    exact pseudoPattern_and_pseudoMask v tvcCommandId ts
  exact ⟨fun s ts => ⟨rfl, rfl, rfl⟩, fun s ts hrun => ⟨_, _, _, exec_of_running _ hrun, exec_of_running _ hrun,
    exec_of_running _ hrun, hmask _ ts, hmask _ ts, hmask _ ts⟩⟩

/-- Settles O22: a running block takes the action of RESERVED7, which only answers `Nothing`. -/
theorem reservedSelectorGetsNothing : Obligations.ReservedSelectorGetsNothing := by
  refine ⟨fun s hrun => ⟨exec_of_running .reserved7 hrun, ?_⟩, fun p hop => ?_⟩
  · have hrun' : Running { s with response := some .nothing } := hrun
    rw [State.pins_of_response rfl, accepts_of_running hrun', hrun'.1]
    rfl
  · simp [decode, decodeReq, hop]

end Sys2Proof

/-! ## The Data Registry (40_data_registry.md)

What stands in each entry of this version's table, and what RESOLVE makes of an entry. -/

namespace Sys2Proof

/-! ### The rows of R66 -/

/-- No data-ID is listed twice, in one row or in two. -/
theorem registryRows_ids_nodup : (registryRows.flatMap (·.2)).Nodup := by decide

theorem registryRows_bands_nodup : (registryRows.map (·.1)).Nodup := by decide

theorem registryRows_eq_of_shared_id :
    ∀ row ∈ registryRows, ∀ row' ∈ registryRows, ∀ n ∈ row.2, n ∈ row'.2 → row = row' := by decide

/-- An ID is unknown exactly when no row lists it. -/
theorem registryEntry_eq_none_iff (n : Nat) : registryEntry n = none ↔ ∀ row ∈ registryRows, n ∉ row.2 := by
  simp [registryEntry]

theorem exists_row_of_registryEntry {n : Nat} {band : Band} (h : registryEntry n = some band) :
    ∃ row ∈ registryRows, row.1 = band ∧ n ∈ row.2 := by
  obtain ⟨row, hfind, hband⟩ := Option.map_eq_some_iff.1 h
  exact ⟨row, List.mem_of_find?_eq_some hfind, hband, by simpa using List.find?_some hfind⟩

/-- The search finds the row that lists the ID, for it is the only one. -/
theorem registryEntry_of_mem {row : Band × List Nat} {n : Nat} (hrow : row ∈ registryRows) (hn : n ∈ row.2) :
    registryEntry n = some row.1 := by
  have hknown : registryEntry n ≠ none := fun h => (registryEntry_eq_none_iff n).1 h row hrow hn
  obtain ⟨band, hband⟩ := Option.ne_none_iff_exists'.1 hknown
  obtain ⟨row', hrow', rfl, hn'⟩ := exists_row_of_registryEntry hband
  rwa [registryRows_eq_of_shared_id row hrow row' hrow' n hn hn']

/-- The entry of an ID names the row's band exactly when the row lists the ID. -/
theorem registryEntry_eq_some_iff {row : Band × List Nat} (hrow : row ∈ registryRows) (n : Nat) :
    registryEntry n = some row.1 ↔ n ∈ row.2 := by
  refine ⟨fun h => ?_, registryEntry_of_mem hrow⟩
  obtain ⟨row', hrow', hband, hn⟩ := exists_row_of_registryEntry h
  exact List.inj_on_of_nodup_map registryRows_bands_nodup hrow' hrow hband ▸ hn

/-- The rows as ranges of data-IDs. -/
theorem registryEntry_eq (n : Nat) : registryEntry n =
    if n ≤ 6 then some .rawSensor
    else if 7 ≤ n ∧ n ≤ 11 then some .gps
    else if n = 12 ∨ n = 13 then some .calibration
    else if 16 ≤ n ∧ n ≤ 19 then some .ascentAbort
    else if n = 38 ∨ (40 ≤ n ∧ n ≤ 49) then some .kalman
    else if n = 80 then some .command
    else if 85 ≤ n ∧ n ≤ 95 then some .propulsion
    else if 100 ≤ n ∧ n ≤ 106 then some .tvc
    else none := by
  have hrow (k : Nat) (hk : k < registryRows.length) (hn : n ∈ registryRows[k].2) :
      registryEntry n = some registryRows[k].1 := registryEntry_of_mem (List.getElem_mem hk) hn
  split_ifs
  · exact hrow 0 (by decide) (by simp [registryRows]; omega)
  · exact hrow 1 (by decide) (by simp [registryRows]; omega)
  · exact hrow 2 (by decide) (by simp [registryRows]; omega)
  · exact hrow 3 (by decide) (by simp [registryRows]; omega)
  · exact hrow 4 (by decide) (by simp [registryRows]; omega)
  · exact hrow 5 (by decide) (by simp [registryRows]; omega)
  · exact hrow 6 (by decide) (by simp [registryRows]; omega)
  · exact hrow 7 (by decide) (by simp [registryRows]; omega)
  · exact (registryEntry_eq_none_iff n).2 (by simp [registryRows]; omega)

/-- The list of R68 is the complement of the rows. -/
theorem registryEntry_eq_none_iff_unlisted (n : Nat) : registryEntry n = none ↔
    n ∈ [0x0E, 0x0F, 0x27] ∨ (0x14 ≤ n ∧ n ≤ 0x25) ∨ (0x32 ≤ n ∧ n ≤ 0x4F) ∨ (0x51 ≤ n ∧ n ≤ 0x54) ∨
      (0x60 ≤ n ∧ n ≤ 0x63) ∨ 0x6B ≤ n := by
  simp only [registryEntry_eq, List.mem_cons, List.not_mem_nil, or_false]
  split_ifs <;> simp only [false_iff, true_iff] <;> omega

/-! ### The table (R16, R66, R68) -/

theorem registryTable_toList : registryTable.toList = (List.range 256).map registryEntry := by
  rw [registryTable, Vector.toList_mk]

@[simp] theorem registryTable_getElem (n : Nat) (h : n < 256) : registryTable[n] = registryEntry n := by
  simp [registryTable]

/-- The entry RESOLVE reads is the one that stands at the ID. -/
@[simp] theorem getElem?_eq_registryLookup (r : Registry) (id : Byte) : r[id.toNat]? = some (registryLookup r id) :=
  Vector.getElem?_eq_getElem id.isLt

theorem registryLookup_registryTable (id : Byte) : registryLookup registryTable id = registryEntry id.toNat :=
  registryTable_getElem id.toNat id.isLt

/-- As many entries satisfy a test as there are IDs whose entry does. -/
theorem registryTable_countP {p : Option Band → Bool} {ids : List Nat} (hnodup : ids.Nodup)
    (hids : ∀ n, n ∈ ids ↔ n < 256 ∧ p (registryEntry n) = true) : registryTable.toList.countP p = ids.length := by
  rw [registryTable_toList, List.countP_map, List.countP_eq_length_filter]
  refine List.Perm.length_eq ((List.perm_ext_iff_of_nodup (List.nodup_range.filter _) hnodup).2 fun n => ?_)
  simp [hids]

theorem registryRows_ids_lt : ∀ row ∈ registryRows, ∀ n ∈ row.2, n < 256 := by decide

/-- A band has as many entries as its row has IDs. -/
theorem registryTable_count_band {row : Band × List Nat} (hrow : row ∈ registryRows) :
    registryTable.toList.count (some row.1) = row.2.length := by
  refine registryTable_countP ((List.nodup_flatMap.1 registryRows_ids_nodup).1 row hrow) fun n => ?_
  rw [beq_iff_eq, registryEntry_eq_some_iff hrow]
  exact ⟨fun h => ⟨registryRows_ids_lt row hrow n h, h⟩, And.right⟩

theorem registryTable_countP_isSome : registryTable.toList.countP (·.isSome) = 48 := by
  refine registryTable_countP registryRows_ids_nodup fun n => ?_
  have hknown : (registryEntry n).isSome = true ↔ ∃ row ∈ registryRows, n ∈ row.2 := by
    rw [← Option.ne_none_iff_isSome, ne_eq, registryEntry_eq_none_iff]
    simp
  rw [hknown, List.mem_flatMap]
  exact ⟨fun ⟨row, hrow, hn⟩ => ⟨registryRows_ids_lt row hrow n hn, row, hrow, hn⟩, And.right⟩

/-- What is not known is unknown: 256 entries less the 48. -/
theorem registryTable_count_none : registryTable.toList.count none = 208 := by
  have htotal := List.length_eq_countP_add_countP (fun e : Option Band => e.isSome) (l := registryTable.toList)
  have hunknown : registryTable.toList.count none = registryTable.toList.countP fun e => decide ¬ e.isSome :=
    List.countP_congr fun e _ => by cases e <;> simp
  rw [Vector.length_toList, registryTable_countP_isSome, ← hunknown] at htotal
  omega

namespace Machine

/-! ### RESOLVE (R65, R67) -/

/-- A known answer carries the ID it answers. -/
theorem id_of_resolve_eq_some {r : Registry} {id : Byte} {m : DataMeaning} (h : resolve r id = some m) : m.id = id := by
  rw [resolve_eq_map, Option.map_eq_some_iff] at h
  obtain ⟨band, -, rfl⟩ := h
  rfl

theorem exec_resolve_of_running {s : State} (id : Byte) (h : Running s) :
    exec (.resolve id) s = .next { s with response := some (.meaning (resolve s.registry id)) } :=
  exec_of_running (.resolve id) h

/-! ### The obligations -/

/-- Settles O1: a running block answers with what it looks up, and the table's entries are those of the rows. -/
theorem resolveAnswersFromTheRegistry : Obligations.ResolveAnswersFromTheRegistry := by
  refine ⟨fun s id hrun => ?_, fun p hop => by simp [decode, decodeReq, hop], fun s id band hrun hband => ?_,
    fun s id hrun hnone => ?_, ?_⟩
  · rw [exec_resolve_of_running id hrun, getElem?_eq_registryLookup, resolve_eq_map]
    cases registryLookup s.registry id <;> rfl
  · refine ⟨_, exec_resolve_of_running id hrun, ?_⟩
    rw [getElem?_eq_registryLookup, Option.some_inj] at hband
    rw [resolve_eq_map, hband, State.pins_of_response rfl]
    exact ⟨rfl, rfl⟩
  · refine ⟨_, exec_resolve_of_running id hrun, ?_⟩
    rw [getElem?_eq_registryLookup, Option.some_inj] at hnone
    rw [resolve_eq_map, hnone, State.pins_of_response rfl]
    exact ⟨rfl, rfl⟩
  · refine ⟨rfl, rfl, rfl, rfl, by decide, by decide, rfl, rfl, by decide, by decide, fun id hid => ?_⟩
    rw [getElem?_eq_registryLookup, registryLookup_registryTable, (registryEntry_eq_none_iff_unlisted _).2 (by omega)]

/-- Settles O3: the list of R68 is the complement of the rows, and a known answer carries its ID. -/
theorem unknownIdsResolveToNone : Obligations.UnknownIdsResolveToNone := by
  refine ⟨fun s id hrun hreg hid => ?_, registryTable_count_none, fun s id id' t t' m hrun ht ht' hm hm' => ?_, rfl⟩
  · rw [exec_resolve_of_running id hrun, hreg, resolve_eq_map, registryLookup_registryTable,
      (registryEntry_eq_none_iff_unlisted _).2 hid, Option.map_none]
  · cases (exec_resolve_of_running id hrun).symm.trans ht
    cases (exec_resolve_of_running id' hrun).symm.trans ht'
    simp only [Option.some.injEq, Response.meaning.injEq] at hm hm'
    exact (id_of_resolve_eq_some hm).symm.trans (id_of_resolve_eq_some hm')

/-- Settles O2: entry by entry the rows as ranges, and as many entries of a band as its row lists. -/
theorem registryKnowsTheListedBands : Obligations.RegistryKnowsTheListedBands := by
  refine ⟨fun id => ?_, registryTable_countP_isSome, ?_⟩
  · exact (registryTable_getElem id.val id.isLt).trans (registryEntry_eq id.val)
  · calc (registryRows.map (·.1)).map (fun band => registryTable.toList.count (some band))
        = registryRows.map (fun row => registryTable.toList.count (some row.1)) := List.map_map
      _ = registryRows.map (·.2.length) := List.map_congr_left fun _ hrow => registryTable_count_band hrow
      _ = [7, 5, 2, 4, 11, 1, 11, 7] := rfl

end Machine
end Sys2Proof

/-! ## The CAN Frame Codec (41_can_frame_codec.md)

The frame of CAN_ENC byte by byte, what CAN_DEC reads in a buffer, and that each undoes the other. -/

namespace Sys2Proof

/-! ### The low 24 bits of a timestamp -/

/-- The low 24 bits are the timestamp modulo `2 ^ 24`. -/
theorem extractLsb'_24_congr {t t' : Word} (h : t.toNat % 2 ^ 24 = t'.toNat % 2 ^ 24) :
    t.extractLsb' 0 24 = t'.extractLsb' 0 24 := by
  apply BitVec.eq_of_toNat_eq
  simpa only [BitVec.extractLsb'_toNat, Nat.shiftRight_zero] using h

/-- Adding `2 ^ 24` changes none of them, with a carry out of the word or without. -/
theorem toNat_add_mod_2_24 (t : Word) : (t + 0x01000000#32).toNat % 2 ^ 24 = t.toNat % 2 ^ 24 := by
  rw [BitVec.toNat_add, BitVec.toNat_ofNat]
  omega

theorem toNat_ofNat_mod_2_24 (n : Nat) : (BitVec.ofNat 32 (n % 2 ^ 24)).toNat % 2 ^ 24 = n % 2 ^ 24 := by
  rw [BitVec.toNat_ofNat]
  omega

/-- A timestamp that fits 24 bits has its top byte 0. -/
theorem extractLsb'_top_of_lt {t : Word} (h : t.toNat < 2 ^ 24) : t.extractLsb' 24 8 = 0 := by
  apply BitVec.eq_of_toNat_eq
  rw [BitVec.extractLsb'_toNat, Nat.shiftRight_eq_div_pow, Nat.div_eq_of_lt h]
  rfl

/-- Three bytes zero-extended are a word whose top byte is 0. -/
theorem setWidth_bytes3 (a b c : Byte) : (a ++ b ++ c).setWidth 32 = 0x00#8 ++ a ++ b ++ c := by
  rw [BitVec.setWidth_append, dif_neg (by decide), BitVec.setWidth_append, dif_neg (by decide),
    BitVec.setWidth_eq_append (by decide)]
  rfl

namespace Machine

/-! ### The frame of CAN_ENC (R75, R77) -/

theorem canEncode_eq (d : Byte) (v t : Word) : canEncode d v t =
    [v.extractLsb' 24 8, v.extractLsb' 16 8, v.extractLsb' 8 8, v.extractLsb' 0 8, d,
      t.extractLsb' 16 8, t.extractLsb' 8 8, t.extractLsb' 0 8] := by
  rw [canEncode, beBytes3_setWidth]
  rfl

theorem canEncode_congr (d : Byte) (v : Word) {t t' : Word} (h : t.extractLsb' 0 24 = t'.extractLsb' 0 24) :
    canEncode d v t = canEncode d v t' := by
  have htrunc (u : Word) : u.setWidth 24 = u.extractLsb' 0 24 := BitVec.setWidth_eq_extractLsb' (by decide)
  rw [canEncode, canEncode, htrunc t, htrunc t', h]

/-- The frame on `rsp_len` and `rsp_buf`. -/
theorem bufferPins_canEncode (d : Byte) (v t : Word) : (bufferPins (canEncode d v t)).rspLen = 8 ∧
    ∀ k, k < 8 → portByte (bufferPins (canEncode d v t)).rspBuf k = (canEncode d v t).getD k 0 :=
  ⟨rfl, fun k hk => portByte_packBytes _ k (by omega)⟩

/-! ### What CAN_DEC reads (R78, R79, R80) -/

theorem canDecode_bytes (b0 b1 b2 b3 b4 b5 b6 b7 : Byte) : canDecode [b0, b1, b2, b3, b4, b5, b6, b7] =
    .valid b4 (b0 ++ b1 ++ b2 ++ b3) (0x00#8 ++ b5 ++ b6 ++ b7) :=
  congrArg (CanResult.valid b4 (b0 ++ b1 ++ b2 ++ b3)) (setWidth_bytes3 b5 b6 b7)

theorem exists_bytes_of_length_eq {b : Buffer} (h : b.length = 8) :
    ∃ b0 b1 b2 b3 b4 b5 b6 b7, b = [b0, b1, b2, b3, b4, b5, b6, b7] :=
  match b, h with
  | [_, _, _, _, _, _, _, _], _ => ⟨_, _, _, _, _, _, _, _, rfl⟩

theorem canDecode_eq_invalid_iff (b : Buffer) : canDecode b = .invalid ↔ b.length ≠ 8 := by
  refine ⟨fun h hlen => ?_, canDecode_of_length_ne⟩
  rw [canDecode, if_pos hlen] at h
  cases h

theorem toNat_lt_of_canDecode {b : Buffer} {d : Byte} {v t : Word} (h : canDecode b = .valid d v t) :
    t.toNat < 2 ^ 24 := by
  have hlegal := legal_canDecode b
  rw [h] at hlegal
  exact of_decide_eq_true hlegal

/-! ### Each undoes the other (R81, R82) -/

theorem canDecode_canEncode (d : Byte) (v t : Word) :
    canDecode (canEncode d v t) = .valid d v ((t.extractLsb' 0 24).setWidth 32) := by
  rw [canEncode_eq, canDecode_bytes, ← setWidth_bytes3, join_bytes4, join_bytes3]

theorem canEncode_of_canDecode {b : Buffer} {d : Byte} {v t : Word} (h : canDecode b = .valid d v t) :
    canEncode d v t = b := by
  have hlen : b.length = 8 := by
    by_contra hne
    cases (canDecode_of_length_ne hne).symm.trans h
  obtain ⟨b0, b1, b2, b3, b4, b5, b6, b7, rfl⟩ := exists_bytes_of_length_eq hlen
  rw [canDecode_bytes, ← setWidth_bytes3] at h
  cases h
  rw [canEncode, beBytes4_append, BitVec.setWidth_setWidth_of_le _ (by decide), BitVec.setWidth_eq, beBytes3_append]
  rfl

/-! ### The two instructions -/

theorem exec_canEnc_of_running {s : State} (d : Byte) (v t : Word) (h : Running s) :
    exec (.canEnc d v t) s = .next { s with response := some (.frame (canEncode d v t)) } :=
  exec_of_running (.canEnc d v t) h

theorem exec_canDec_of_running {s : State} (b : Buffer) (h : Running s) :
    exec (.canDec b) s = .next { s with response := some (.canResult (canDecode b)) } :=
  exec_of_running (.canDec b) h

/-! ### The obligations -/

/-- Settles O4: a running block answers with the frame, whose bytes and integer view are those of its operands. -/
theorem canEncPacksTheFrame : Obligations.CanEncPacksTheFrame := by
  refine ⟨fun s d v t hrun => ?_, fun p hop => by simp [decode, decodeReq, hop], fun s d v t hrun => ?_⟩
  · rw [exec_canEnc_of_running d v t hrun, canEncode_eq]
  · refine ⟨_, _, exec_canEnc_of_running d v t hrun, rfl, frameNumber_canEncode d v t, ?_⟩
    rw [State.pins_of_response rfl]
    exact ⟨rfl, bufferPins_canEncode d v t⟩

/-- Settles O5: the frame depends on the low 24 bits alone, which are the timestamp modulo `2 ^ 24`. -/
theorem canEncTruncatesTheTimestamp : Obligations.CanEncTruncatesTheTimestamp := by
  have hlow (s : State) (d : Byte) (v t t' : Word) (h : t.extractLsb' 0 24 = t'.extractLsb' 0 24) :
      exec (.canEnc d v t) s = exec (.canEnc d v t') s :=
    exec_congr (by simp only [action, canEncode_congr d v h]) s
  exact ⟨hlow, fun s d v t => hlow s d v _ _ (extractLsb'_24_congr (toNat_add_mod_2_24 t).symm),
    fun s d v t => hlow s d v _ _ (extractLsb'_24_congr (toNat_ofNat_mod_2_24 t.toNat).symm)⟩

/-- Settles O6: a running block answers with what it reads in the buffer, which is `Invalid` exactly for a wrong length and
else has a timestamp of 24 bits. -/
theorem canDecReadsOrRejects : Obligations.CanDecReadsOrRejects := by
  refine ⟨fun s b hrun => ?_, fun s t b hrun ht => ?_, fun s t b d v ts hrun ht hvalid => ?_,
    fun s t b hrun ht hlen => ?_, fun p hop hlen hlisted => ?_⟩
  · rw [exec_canDec_of_running b hrun]
    split
    · rw [canDecode_bytes]
    next hshape =>
      have hlen : b.length ≠ 8 := fun h => by
        obtain ⟨b0, b1, b2, b3, b4, b5, b6, b7, hb⟩ := exists_bytes_of_length_eq h
        exact hshape b0 b1 b2 b3 b4 b5 b6 b7 hb
      rw [canDecode_of_length_ne hlen]
  · cases (exec_canDec_of_running b hrun).symm.trans ht
    simpa using canDecode_eq_invalid_iff b
  · cases (exec_canDec_of_running b hrun).symm.trans ht
    have hts : ts.toNat < 2 ^ 24 := toNat_lt_of_canDecode (by simpa using hvalid)
    rw [State.pins_of_response hvalid]
    exact ⟨extractLsb'_top_of_lt hts, hts, rfl, rfl, rfl, rfl⟩
  · cases (exec_canDec_of_running b hrun).symm.trans ht
    rw [State.pins_of_response rfl, canDecode_of_length_ne hlen]
    exact ⟨rfl, rfl, rfl, rfl⟩
  · have hbuf : p.buffer = p.buf.take p.len := portBuffer_eq_take p.buf p.len hlisted
    have hsel : decode (.req p) = guardLen p.len (.canDec p.buffer) := by simp [decode, decodeReq, hop]
    rw [hsel, guardLen_of_le _ hlen, hbuf]

/-- Settles O7: CAN_ENC leaves the block running, and what CAN_DEC reads in its frame is the triple. -/
theorem canEncodeThenDecode : Obligations.CanEncodeThenDecode := by
  intro s d v t hrun
  have hrun' := running_action_of_not_halting (i := .canEnc d v t) rfl hrun
  refine ⟨_, _, _, exec_of_running _ hrun, rfl, exec_canDec_of_running _ hrun', ?_, fun ht => ?_⟩
  · rw [canDecode_canEncode]
  · rw [canDecode_canEncode, setWidth_extractLsb'_of_tsFits (decide_eq_true ht)]

/-- Settles O8: CAN_DEC leaves the block running, and the frame of the fields it reads is the buffer. -/
theorem canDecodeThenEncode : Obligations.CanDecodeThenEncode := by
  intro s b hrun hlen
  obtain ⟨d, v, t, hread⟩ : ∃ d v t, canDecode b = .valid d v t := ⟨_, _, _, if_pos hlen⟩
  have hrun' := running_action_of_not_halting (i := .canDec b) rfl hrun
  refine ⟨d, v, t, _, _, exec_of_running _ hrun, ?_, exec_canEnc_of_running d v t hrun', ?_⟩
  · exact congrArg (some ∘ Response.canResult) hread
  · rw [canEncode_of_canDecode hread]

end Machine
end Sys2Proof

/-! ## The Serial Payload Codec (42_serial_payload_codec.md)

A record is the list of its words and an encoding the list of their bytes: what the block writes word by word, that reading
the words back undoes it and is undone by it, and when the byte order is seen. -/

namespace Sys2Proof

/-! ### The fields of a record as a list of words (R42, R43) -/

theorem SensorRecord.words_ofWords (w : Nat → Word) : (SensorRecord.ofWords w).words = (List.range 13).map w := rfl

theorem CommandRecord.words_ofWords (w : Nat → Word) : (CommandRecord.ofWords w).words = (List.range 6).map w := rfl

theorem SensorRecord.ofWords_words (r : SensorRecord) : SensorRecord.ofWords (fun k => r.words.getD k 0) = r := rfl

theorem SensorRecord.words_injective : Function.Injective SensorRecord.words :=
  fun _ _ h => congrArg (fun ws : List Word => SensorRecord.ofWords (fun k => ws.getD k 0)) h

theorem getD_map_range (w : Nat → Word) {n k : Nat} (hk : k < n) : ((List.range n).map w).getD k 0 = w k := by
  simp [hk]

/-! ### One word in a buffer (R25, R26, R31) -/

/-- Bytes that all stand in the buffer, read one by one. -/
theorem memRead_eq_map {b : Buffer} {off n : Nat} (h : off + n ≤ b.length) :
    memRead b off n = (List.range n).map fun i => byteAt b (off + i) := by
  apply List.ext_getElem
  · simp [memRead]; omega
  · intro i _ hi
    have hi : off + i < b.length := by simp at hi; omega
    simp [memRead, byteAt, hi]

/-- Writing back a word that was read gives the bytes it was read from. -/
theorem serBytes_ser_eq_memRead (o : SerialOrder) {b : Buffer} {off : Nat} (h : off + 4 ≤ b.length) :
    serBytes o (ser o b off) = memRead b off 4 := by
  rw [serBytes_ser, memRead_eq_map h]
  rfl

theorem serBytes_injective (o : SerialOrder) : Function.Injective (serBytes o) :=
  Function.LeftInverse.injective (g := fun b => ser o b 0) fun v => by
    simpa using ser_serBytes o v []

/-- The bytes of a word in one order are those in the other from last to first. -/
theorem serBytes_be (v : Word) : serBytes .be v = (serBytes .le v).reverse := rfl

@[simp] theorem ser_nil (o : SerialOrder) (off : Nat) : ser o [] off = 0 := by
  cases o <;> simp [ser, le32, be32, byteAt]

/-- The two orders read the same word exactly from a palindrome. -/
theorem ser_le_eq_ser_be_iff {b : Buffer} {off : Nat} (h : off + 4 ≤ b.length) :
    ser .le b off = ser .be b off ↔ (memRead b off 4).reverse = memRead b off 4 := by
  rw [← (serBytes_injective .be).eq_iff, serBytes_be, serBytes_ser_eq_memRead .le h, serBytes_ser_eq_memRead .be h]

/-- A write right behind the first bytes of a buffer replaces as many of those that follow. -/
theorem memWrite_append (a b s : Buffer) : memWrite (a ++ b) a.length s = a ++ s ++ b.drop s.length := by
  simp [memWrite, List.drop_append]

namespace Machine

/-! ### Many words in a buffer (R90, R92, R94) -/

theorem encodeWords_append (o : SerialOrder) (ws ws' : List Word) :
    encodeWords o (ws ++ ws') = encodeWords o ws ++ encodeWords o ws' := by simp [encodeWords]

/-- After `n` writes the first `n` words are in place and the rest of the buffer is as it was. -/
theorem foldl_memWrite_eq_append (o : SerialOrder) (w : Nat → Word) (b : Buffer) (n : Nat) :
    (List.range n).foldl (fun b k => memWrite b (4 * k) (serBytes o (w k))) b =
      encodeWords o ((List.range n).map w) ++ b.drop (4 * n) := by
  induction n with
  | zero => simp
  | succ n ih =>
    have hlen : (encodeWords o ((List.range n).map w)).length = 4 * n := by simp [encodeWords_length]
    have hwrite := memWrite_append (encodeWords o ((List.range n).map w)) (b.drop (4 * n)) (serBytes o (w n))
    rw [hlen, serBytes_length, List.drop_drop] at hwrite
    rw [List.range_succ, List.foldl_append, ih, List.map_append, encodeWords_append, Nat.mul_succ]
    simpa using hwrite

/-- The writes of all words fill a buffer of their length with the encoding. -/
theorem foldl_memWrite_eq_encodeWords (o : SerialOrder) (w : Nat → Word) (n : Nat) {b : Buffer} (hb : b.length = 4 * n) :
    (List.range n).foldl (fun b k => memWrite b (4 * k) (serBytes o (w k))) b =
      encodeWords o ((List.range n).map w) := by
  rw [foldl_memWrite_eq_append, List.drop_of_length_le hb.le, List.append_nil]

/-- Word `k` is read where it was written. -/
theorem ser_encodeWords (o : SerialOrder) (ws : List Word) (k : Nat) :
    ser o (encodeWords o ws) (4 * k) = ws.getD k 0 := by
  induction ws generalizing k with
  | nil => simp
  | cons w ws ih =>
    rw [encodeWords_cons]
    cases k with
    | zero => exact ser_serBytes o w _
    | succ k =>
      have hoff : 4 * (k + 1) - (serBytes o w).length = 4 * k := by rw [serBytes_length]; omega
      rw [ser_append o _ _ _ (by rw [serBytes_length]; omega), hoff, ih, List.getD_cons_succ]

/-- The words read from the front of a buffer encode to the bytes they were read from. -/
theorem encodeWords_ser (o : SerialOrder) {b : Buffer} {n : Nat} (hn : 4 * n ≤ b.length) :
    encodeWords o ((List.range n).map fun k => ser o b (4 * k)) = b.take (4 * n) := by
  induction n with
  | zero => simp
  | succ n ih =>
    have hword := serBytes_ser_eq_memRead o (b := b) (off := 4 * n) (by omega)
    rw [List.range_succ, List.map_append, encodeWords_append, ih (by omega), Nat.mul_succ, List.take_add]
    simpa [memRead] using hword

/-- Equal encodings in the two orders: word by word a palindrome. -/
theorem encodeWords_le_eq_be_iff (ws : List Word) :
    encodeWords .le ws = encodeWords .be ws ↔ ∀ w ∈ ws, (leBytes4 w).reverse = leBytes4 w := by
  induction ws with
  | nil => simp
  | cons w ws ih =>
    have hsplit : encodeWords .le (w :: ws) = encodeWords .be (w :: ws) ↔
        serBytes .le w = serBytes .be w ∧ encodeWords .le ws = encodeWords .be ws :=
      ⟨fun h => List.append_inj h (by simp), fun ⟨hw, hws⟩ => by rw [encodeWords_cons, encodeWords_cons, hw, hws]⟩
    rw [hsplit, ih, List.forall_mem_cons]
    exact and_congr_left' eq_comm

/-! ### The two records and SENS_DEC -/

theorem sensorOfBytes_words (o : SerialOrder) (b : Buffer) :
    (sensorOfBytes o b).words = (List.range 13).map fun k => ser o b (4 * k) := rfl

theorem decodeSensor_of_length_eq (o : SerialOrder) {b : Buffer} (h : b.length = 52) :
    decodeSensor o b = .ok (sensorOfBytes o b) := by
  simp [decodeSensor, h]

theorem decodeSensor_eq_err_iff (o : SerialOrder) (b : Buffer) :
    decodeSensor o b = .err .lengthMismatch ↔ b.length ≠ 52 := by
  refine ⟨fun h hlen => ?_, decodeSensor_of_length_ne o⟩
  rw [decodeSensor_of_length_eq o hlen] at h
  cases h

/-- Reading undoes writing (R99). -/
theorem sensorOfBytes_encodeSensor (o : SerialOrder) (r : SensorRecord) : sensorOfBytes o (encodeSensor o r) = r := by
  simp only [sensorOfBytes, encodeSensor, ser_encodeWords, SensorRecord.ofWords_words]

/-- Writing undoes reading (R98). -/
theorem encodeSensor_sensorOfBytes (o : SerialOrder) {b : Buffer} (h : b.length = 52) :
    encodeSensor o (sensorOfBytes o b) = b := by
  rw [encodeSensor, sensorOfBytes_words, encodeWords_ser o h.ge, List.take_of_length_le h.le]

theorem decodeSensor_encodeSensor (o : SerialOrder) (r : SensorRecord) :
    decodeSensor o (encodeSensor o r) = .ok r := by
  rw [decodeSensor_of_length_eq o (encodeSensor_length o r), sensorOfBytes_encodeSensor]

/-- Two readings are the same record when they agree word by word. -/
theorem sensorOfBytes_eq_iff (o o' : SerialOrder) (b : Buffer) :
    sensorOfBytes o b = sensorOfBytes o' b ↔ ∀ k, k < 13 → ser o b (4 * k) = ser o' b (4 * k) := by
  rw [← SensorRecord.words_injective.eq_iff, sensorOfBytes_words, sensorOfBytes_words, List.map_inj_left]
  simp only [List.mem_range]

/-- The encoding of a sensor record is the thirteen writes of R90. -/
theorem encodeSensor_eq_foldl (o : SerialOrder) (r : SensorRecord) : encodeSensor o r =
    (List.range 13).foldl (fun b k => memWrite b (4 * k) (serBytes o (r.words.getD k 0))) (List.replicate 52 0x00#8) :=
  (foldl_memWrite_eq_encodeWords o (fun k => r.words.getD k 0) 13 List.length_replicate).symm

/-- The encoding of a command record is the six writes of R94. -/
theorem encodeCommand_eq_foldl (o : SerialOrder) (c : CommandRecord) : encodeCommand o c =
    (List.range 6).foldl (fun b k => memWrite b (4 * k) (serBytes o (c.words.getD k 0))) (List.replicate 24 0x00#8) :=
  (foldl_memWrite_eq_encodeWords o (fun k => c.words.getD k 0) 6 List.length_replicate).symm

/-! ### The three instructions and their ports -/

theorem exec_sensEnc_of_running {s : State} (r : SensorRecord) (h : Running s) : exec (.sensEnc r) s =
    .next { s with response := some (.sensorBytes (encodeSensor Config.serialOrder r)) } :=
  exec_of_running (.sensEnc r) h

theorem exec_sensDec_of_running {s : State} (b : Buffer) (h : Running s) : exec (.sensDec b) s =
    .next { s with response := some (.sensorResult (decodeSensor Config.serialOrder b)) } :=
  exec_of_running (.sensDec b) h

theorem exec_cmdEnc_of_running {s : State} (c : CommandRecord) (h : Running s) : exec (.cmdEnc c) s =
    .next { s with response := some (.commandBytes (encodeCommand Config.serialOrder c)) } :=
  exec_of_running (.cmdEnc c) h

/-- A buffer that fits `rsp_buf`, on `rsp_len` and `rsp_buf`. -/
theorem bufferPins_of_length {b : Buffer} {n : Nat} (h : b.length = n) (hn : n ≤ 52) :
    (bufferPins b).rspLen = BitVec.ofNat 6 n ∧ ∀ k, k < n → portByte (bufferPins b).rspBuf k = b.getD k 0 :=
  ⟨congrArg (BitVec.ofNat 6) h, fun k hk => portByte_packBytes b k (by omega)⟩

/-! ### The obligations -/

/-- Settles O10: a running block answers with the encoding, which is the thirteen writes. -/
theorem sensEncWritesThirteenWords : Obligations.SensEncWritesThirteenWords := by
  refine ⟨fun s r hrun => ?_, fun s r hrun => ?_, fun p hop => ⟨p.sensor, ?_, fun k hk => ?_⟩⟩
  · rw [exec_sensEnc_of_running r hrun, encodeSensor_eq_foldl]
  · refine ⟨_, _, exec_sensEnc_of_running r hrun, rfl, encodeSensor_length _ r, ?_⟩
    rw [State.pins_of_response rfl]
    exact ⟨rfl, bufferPins_of_length (encodeSensor_length _ r) (by decide)⟩
  · simp [decode, decodeReq, hop]
  · exact getD_map_range (portWord p.words) hk

/-- Settles O12: as for SENS_ENC, with the six writes. -/
theorem cmdEncWritesSixWords : Obligations.CmdEncWritesSixWords := by
  refine ⟨fun s c hrun => ?_, fun s c hrun => ?_, fun p hop => ⟨p.command, ?_, fun k hk => ?_⟩⟩
  · rw [exec_cmdEnc_of_running c hrun, encodeCommand_eq_foldl]
  · refine ⟨_, _, exec_cmdEnc_of_running c hrun, rfl, encodeCommand_length _ c, ?_⟩
    rw [State.pins_of_response rfl]
    exact ⟨rfl, bufferPins_of_length (encodeCommand_length _ c) (by decide)⟩
  · simp [decode, decodeReq, hop]
  · exact getD_map_range (portWord p.words) hk

/-- Settles O13: SENS_DEC leaves the block running, and the record it reads encodes to the buffer. -/
theorem sensorDecodeThenEncode : Obligations.SensorDecodeThenEncode := by
  refine ⟨fun s b hrun hlen => ?_, fun o b hlen =>
    ⟨_, decodeSensor_of_length_eq o hlen, encodeSensor_sensorOfBytes o hlen⟩⟩
  have hrun' := running_action_of_not_halting (i := .sensDec b) rfl hrun
  refine ⟨sensorOfBytes Config.serialOrder b, _, _, exec_of_running _ hrun, ?_, exec_sensEnc_of_running _ hrun', ?_⟩
  · exact congrArg (some ∘ Response.sensorResult) (decodeSensor_of_length_eq _ hlen)
  · rw [encodeSensor_sensorOfBytes _ hlen]

/-- Settles O14: SENS_ENC leaves the block running, and its bytes decode to the record. -/
theorem sensorEncodeThenDecode : Obligations.SensorEncodeThenDecode := by
  refine ⟨fun s r hrun => ?_, decodeSensor_encodeSensor⟩
  have hrun' := running_action_of_not_halting (i := .sensEnc r) rfl hrun
  refine ⟨_, _, _, exec_of_running _ hrun, rfl, exec_sensDec_of_running _ hrun', ?_⟩
  rw [decodeSensor_encodeSensor]

/-- Settles O15: both directions word by word: the bytes of a word in one order are those in the other reversed. -/
theorem serialOrderMattersExactlyOffPalindromes : Obligations.SerialOrderMattersExactlyOffPalindromes := by
  refine ⟨fun r => encodeWords_le_eq_be_iff r.words, fun c => encodeWords_le_eq_be_iff c.words, fun b hlen => ?_,
    decodeSensor_eq_err_iff⟩
  have hword (k : Nat) (hk : k < 13) : ser .le b (4 * k) = ser .be b (4 * k) ↔
      (memRead b (4 * k) 4).reverse = memRead b (4 * k) 4 := ser_le_eq_ser_be_iff (by omega)
  refine ⟨_, _, decodeSensor_of_length_eq .le hlen, decodeSensor_of_length_eq .be hlen, fun k hk => ?_, ?_⟩
  · rw [sensorOfBytes_words, sensorOfBytes_words, getD_map_range _ hk, getD_map_range _ hk, hword k hk]
  · rw [sensorOfBytes_eq_iff]
    exact forall₂_congr hword

/-- Settles O11: a running block answers with the record it reads or, exactly for a wrong length, with the error. -/
theorem sensDecReadsOrRejects : Obligations.SensDecReadsOrRejects := by
  refine ⟨fun s b hrun hlen => ?_, fun s b hrun hlen => ⟨?_, ?_⟩, fun p hop hlen hlisted => ?_⟩
  · refine ⟨sensorOfBytes Config.serialOrder b, ?_, sensorOfBytes_words _ b, ?_⟩
    · rw [exec_sensDec_of_running b hrun, decodeSensor_of_length_eq _ hlen]
    · intro u
      rw [State.pins_of_response (s := u) rfl]
      exact ⟨rfl, fun k hk => portWord_packWords _ k hk⟩
  · rw [exec_sensDec_of_running b hrun, decodeSensor_of_length_ne _ hlen]
  · intro u
    rw [State.pins_of_response (s := u) rfl]
    exact ⟨rfl, rfl⟩
  · have hbuf : p.buffer = p.buf.take p.len := portBuffer_eq_take p.buf p.len hlisted
    have hsel : decode (.req p) = guardLen p.len (.sensDec p.buffer) := by simp [decode, decodeReq, hop]
    rw [hsel, guardLen_of_le _ hlen, hbuf]

end Machine
end Sys2Proof

/-! ## The Slave Protocol Dispatcher (43_slave_dispatcher.md)

DISPATCH is one of the five behaviours of format MSG: which one, what each answers, and what the Shutdown action does to the
block in a step. -/

namespace Sys2Proof

/-! ### From a message to its instruction (R52, R106) -/

/-- A message whose payload the ports can carry is read by opcode, then length. -/
theorem decode_msg_of_le (o : Byte) {p : Buffer} (h : p.length ≤ Config.maxLen) :
    decode (.msg o p) = .ok (decodeMsg o p) :=
  Machine.guardLen_of_le _ h

theorem ne_opcodes_iff_le_toNat (b : Byte) : (b ≠ 0x00#8 ∧ b ≠ 0x01#8 ∧ b ≠ 0x02#8) ↔ 3 ≤ b.toNat := by
  bv_omega

/-- The three opcode bytes are the three `SlaveOpcode`s, and no byte from 3 on is one (R106). -/
theorem SlaveOpcode.ofByte_iff (b : Byte) :
    (SlaveOpcode.ofByte b = some .ping ↔ b = 0x00#8) ∧ (SlaveOpcode.ofByte b = some .shutdown ↔ b = 0x01#8) ∧
    (SlaveOpcode.ofByte b = some .payload ↔ b = 0x02#8) ∧ (SlaveOpcode.ofByte b = none ↔ 3 ≤ b.toNat) := by
  refine ⟨?_, ?_, ?_, (SlaveOpcode.ofByte_eq_none_iff b).trans (ne_opcodes_iff_le_toNat b)⟩
  all_goals
    unfold SlaveOpcode.ofByte
    split_ifs <;> simp_all

namespace Machine

/-! ### The behaviour DISPATCH selects (R105, R107) -/

theorem exec_dispatch_ping (p : Buffer) (s : State) : exec (.dispatch 0x00#8 p) s = exec (.ping p) s :=
  exec_congr rfl s

theorem exec_dispatch_shutdown (p : Buffer) (s : State) : exec (.dispatch 0x01#8 p) s = exec (.shutdown p) s :=
  exec_congr rfl s

theorem exec_dispatch_payload {p : Buffer} (h : p.length = 52) (s : State) :
    exec (.dispatch 0x02#8 p) s = exec (.payload (fullPayload p h)) s :=
  exec_congr (by funext s; exact dif_pos h) s

theorem exec_dispatch_payloadBadlen (p : BadLenPayload) (s : State) :
    exec (.dispatch 0x02#8 p.bytes) s = exec (.payloadBadlen p) s :=
  exec_congr (by funext s; exact dif_neg p.badLen) s

theorem exec_dispatch_nopUnknown (o : UnknownOpcode) (p : Buffer) (s : State) :
    exec (.dispatch o.byte p) s = exec (.nopUnknown o p) s := by
  refine exec_congr (funext fun s => ?_) s
  simp only [action, actDispatch, (SlaveOpcode.ofByte_eq_none_iff o.byte).2 o.unknown]

/-! ### What each behaviour does to a running block (R108, R109, R112, R113, R114) -/

theorem exec_ping_of_running {s : State} (p : Buffer) (h : Running s) : exec (.ping p) s =
    .next { s with response := some (.dispatchResult (.reply [0xCE#8, 0xEC#8])) } :=
  exec_of_running (.ping p) h

theorem exec_shutdown_of_running {s : State} (p : Buffer) (h : Running s) : exec (.shutdown p) s =
    .next { s with
      halted := true, events := s.events ++ [.shutdownRequested], response := some (.dispatchResult .noReply) } :=
  exec_of_running (.shutdown p) h

theorem exec_payload_of_running {s : State} (p : Vector Byte 52) (h : Running s) : exec (.payload p) s =
    .next { s with response := some (.dispatchResult (.reply (List.replicate 24 0x00#8))) } := by
  rw [exec_of_running (.payload p) h, action, actPayload_eq, State.answer]

theorem exec_payloadBadlen_of_running {s : State} (p : BadLenPayload) (h : Running s) : exec (.payloadBadlen p) s =
    .next { s with response := some (.dispatchResult (.reply [0xC5#8, 0xE5#8])) } :=
  exec_of_running (.payloadBadlen p) h

theorem exec_nopUnknown_of_running {s : State} (o : UnknownOpcode) (p : Buffer) (h : Running s) :
    exec (.nopUnknown o p) s = .next { s with response := some (.dispatchResult .noReply) } :=
  exec_of_running (.nopUnknown o p) h

/-! ### The answer of DISPATCH and its ports (R105, R115) -/

theorem exec_dispatch_of_running {s : State} (o : Byte) (p : Buffer) (h : Running s) :
    exec (.dispatch o p) s = .next (actDispatch o p s) :=
  exec_of_running (.dispatch o p) h

/-- Whichever behaviour is selected, the answer is a `DispatchResult`. -/
theorem actDispatch_response (o : Byte) (p : Buffer) (s : State) :
    ∃ r, (actDispatch o p s).response = some (.dispatchResult r) := by
  obtain ⟨-, e⟩ | ⟨-, e⟩ | ⟨-, hlen, e⟩ | ⟨-, -, e⟩ | ⟨-, e⟩ := actDispatch_cases o p s <;> rw [e]
  · exact ⟨_, actPing_response s⟩
  · exact ⟨_, actShutdown_response s⟩
  · exact ⟨_, actPayload_response _ s⟩
  · exact ⟨_, actPayloadBadlen_response s⟩
  · exact ⟨_, actNopUnknown_response s⟩

/-- A reply has 2 or 24 bytes (R115). -/
theorem length_le_of_legalReply {b : Buffer} (h : legalReply b = true) : b.length ≤ 24 := by
  have : (b = ackBytes ∨ b = errBytes) ∨ b = List.replicate 24 0x00#8 := by simpa [legalReply] using h
  obtain (rfl | rfl) | rfl := this <;> decide

/-- A reply that DISPATCH gives has 2 or 24 bytes. -/
theorem reply_length_le {o : Byte} {p b : Buffer} {s : State}
    (h : (actDispatch o p s).response = some (.dispatchResult (.reply b))) : b.length ≤ 24 := by
  obtain ⟨r, hr, hlegal⟩ := actDispatch_response_legal o p s
  obtain rfl : r = .dispatchResult (.reply b) := Option.some.inj (hr.symm.trans h)
  exact length_le_of_legalReply hlegal

/-- A reply on the ports: its length on `rsp_len`, its bytes on `rsp_buf`. -/
theorem State.pins_of_reply {s : State} {b : Buffer} (h : s.response = some (.dispatchResult (.reply b)))
    (hlen : b.length ≤ 52) : s.pins.rspOk = true ∧ s.pins.rspLen.toNat = b.length ∧
      ∀ k, k < b.length → portByte s.pins.rspBuf k = b.getD k 0 := by
  obtain ⟨hl, hbytes⟩ := bufferPins_of_length (b := b) rfl hlen
  rw [State.pins_of_response h, payloadPins_reply]
  refine ⟨rfl, ?_, hbytes⟩
  rw [hl, BitVec.toNat_ofNat, Nat.mod_eq_of_lt (by omega)]

/-- Without a reply every port of the response but `rsp_valid` is 0. -/
theorem State.pins_of_noReply {s : State} (h : s.response = some (.dispatchResult .noReply)) :
    s.pins = { rspValid := true, reqReady := s.accepts, shutdownReq := s.halted } := by
  rw [State.pins_of_response h, payloadPins_of_not_ok rfl]
  rfl

/-! ### `halted` and the events (R110) -/

/-- An instruction either leaves `halted` and the events alone, or is the Shutdown action taken by a running block. -/
theorem exec_halted_events {i : Instr} {s t : State} (h : exec i s = .next t) :
    (t.halted = s.halted ∧ t.events = s.events) ∨
    (haltsBlock i = true ∧ s.halted = false ∧ t.halted = true ∧ t.events = s.events ++ [.shutdownRequested]) := by
  rw [exec_eq_accept] at h
  obtain ⟨⟨hrunning, -⟩, rfl⟩ | ⟨-, rfl⟩ := accept_cases h
  · obtain ⟨-, -, -, -, ⟨hb, hhalted, hevents⟩ | ⟨-, hsame⟩⟩ := action_spec i s
    · exact .inr ⟨hb, hrunning, hhalted, hevents⟩
    · exact .inl hsame
  · exact .inl ⟨rfl, rfl⟩

/-! ### The obligations -/

/-- Settles O16: DISPATCH takes the action of the behaviour selected, so that its answer is one of those, on the ports. -/
theorem dispatchRoutesByOpcodeThenLength : Obligations.DispatchRoutesByOpcodeThenLength := by
  refine ⟨fun s p => ⟨exec_dispatch_ping p s, exec_dispatch_shutdown p s, fun q => ?_,
      fun q => exec_dispatch_payloadBadlen q s, fun u => exec_dispatch_nopUnknown u p s⟩,
    fun s o p hrun => ?_, SlaveOpcode.ofByte_iff, fun p hop hlen hlisted => ?_⟩
  · rw [exec_dispatch_payload (by simp), fullPayload_toList]
  · obtain ⟨r, hr⟩ := actDispatch_response o p s
    refine ⟨r, _, exec_dispatch_of_running o p hrun, hr, by rw [State.pins_of_response hr], ?_, ?_⟩
    · rintro b rfl
      exact State.pins_of_reply hr ((reply_length_le hr).trans (by decide))
    · rintro rfl
      rw [State.pins_of_noReply hr]
      exact ⟨rfl, rfl, rfl⟩
  · have hbuf : p.buffer = p.buf.take p.len := portBuffer_eq_take p.buf p.len hlisted
    have hsel : decode (.req p) = guardLen p.len (.dispatch p.opcode p.buffer) := by simp [decode, decodeReq, hop]
    rw [hsel, guardLen_of_le _ hlen, hbuf]

/-- Settles O19: decoding 52 bytes succeeds, and the command derived from any record is encoded as zeros. -/
theorem payloadIsAnsweredWithTheZeroCommand : Obligations.PayloadIsAnsweredWithTheZeroCommand := by
  refine ⟨fun s p hrun => exec_payload_of_running p hrun, fun s p hrun hlen => ?_, fun o p => ?_, fun p => ?_⟩
  · rw [exec_dispatch_payload hlen, exec_payload_of_running _ hrun]
  · exact ⟨_, decodeSensor_of_length_eq o (by simp), encodeCommand_cmdDerive o _⟩
  · have hlen : p.toList.length ≤ Config.maxLen := by simpa using le_trans (by decide) maxLen_ge
    rw [decode_msg_of_le _ hlen, decodeMsg_payload]

/-- Settles O23: a halted block and a block in reset do not accept, and what is not accepted only drops the response. -/
theorem nothingIsAcceptedWhenNotRunning : Obligations.NothingIsAcceptedWhenNotRunning := by
  intro i s h
  have hidle : s.accepts = false := h.elim not_accepts_of_halted not_accepts_of_rst
  exact exec_of_not_accepts i hidle

/-- Settles O34: by cases over what a step can do: reset and an idle step emit nothing and do not raise `halted`, and an
instruction does both only as the Shutdown action; a halted block out of reset stays as it is. -/
theorem shutdownRequestFollowsHalted : Obligations.ShutdownRequestFollowsHalted := by
  refine ⟨State.pins_shutdownReq, fun s t h => ?_, fun s t h hhalted => ?_⟩
  · obtain ⟨-, rfl⟩ | ⟨-, rfl, -⟩ | ⟨hrst, p, i, hreq, hdec, hexec⟩ := step_cases h
    · exact .inl ⟨rfl, by simp⟩
    · exact .inl ⟨rfl, id⟩
    · obtain ⟨hsame, hevents⟩ | ⟨hb, hrunning, hrises, hevents⟩ := exec_halted_events hexec
      · exact .inl ⟨hevents, fun ht => hsame.symm.trans ht⟩
      · have hdrive : s.nextDrive = ⟨false, some p⟩ := by rw [← hrst, ← hreq]
        exact .inr ⟨hevents, hrunning, hrises, p, i, hdrive, hdec, hb⟩
  · cases hrst : s.nextDrive.rst with
    | true =>
      cases (step_of_rst hrst).symm.trans h
      simp
    | false =>
      cases (step_of_halted hhalted hrst).symm.trans h
      simp [hhalted]

/-- Settles O17: the reply of PING, to which DISPATCH routes the opcode. -/
theorem pingIsAcknowledged : Obligations.PingIsAcknowledged := by
  refine ⟨fun s p hrun => ⟨exec_ping_of_running p hrun, ?_⟩, fun p hlen => decode_msg_of_le 0x00#8 hlen⟩
  rw [exec_dispatch_ping, exec_ping_of_running p hrun]

/-- Settles O18: the next state of SHUTDOWN written out, and the ports of a halted block without a reply. -/
theorem shutdownHaltsWithoutReply : Obligations.ShutdownHaltsWithoutReply := by
  refine ⟨fun s p hrun => ⟨exec_shutdown_of_running p hrun, exec_dispatch_shutdown p s⟩, fun s t p hrun ht => ?_,
    fun p hlen => decode_msg_of_le 0x01#8 hlen⟩
  cases (exec_shutdown_of_running p hrun).symm.trans ht
  rw [State.pins_of_noReply rfl, not_accepts_of_halted rfl]

/-- Settles O20: the reply of PAYLOAD_BADLEN, to which DISPATCH routes every other length. -/
theorem badLengthPayloadGetsTheSentinel : Obligations.BadLengthPayloadGetsTheSentinel := by
  refine ⟨fun s p hrun => exec_payloadBadlen_of_running p hrun, fun s p hrun hlen => ?_, fun p hlen => ?_⟩
  · rw [exec_dispatch_payloadBadlen ⟨p, hlen⟩, exec_payloadBadlen_of_running _ hrun]
  · rw [decode_msg_of_le _ hlen, decodeMsg_payloadBadlen]

/-- Settles O21: a byte from 3 on is the opcode of a NOP_UNKNOWN, whose answer without a reply is all it changes. -/
theorem unknownOpcodesAreIgnored : Obligations.UnknownOpcodesAreIgnored := by
  refine ⟨fun s o p hrun => exec_nopUnknown_of_running o p hrun, fun s o p hrun ho => ⟨?_, ?_⟩, fun o p hlen => ?_⟩
  · have hunknown := (ne_opcodes_iff_le_toNat o).2 ho
    rw [exec_dispatch_nopUnknown ⟨o, hunknown⟩, exec_nopUnknown_of_running _ p hrun]
  · intro u
    rw [State.pins_of_noReply (s := u) rfl]
    exact ⟨hrun, rfl, rfl, rfl, hrun.1⟩
  · rw [decode_msg_of_le _ hlen, decodeMsg_nopUnknown]

end Machine
end Sys2Proof
